-- ==== Sys2Proof/Word.lean ====
section
/-! DEFINITION. The bus and register widths of BSWV (10_state.md R13 to R32). -/

namespace Sys2Proof

/-- A 16-bit bus: `arg_value`, `res_seq`, `res_val`, a LUT (bit a = entry a). -/
abbrev Bus16 := BitVec 16

/-- The 5-bit width operand `arg_width` and the register LEN (30_encoding.md R53, 10_state.md R20). -/
abbrev Width := BitVec 5

/-- A 56-bit frame, position-indexed: bit i is element i (20_memory.md R36). -/
abbrev Frame := BitVec 56

/-- The 6-bit registers IDX and FAIL_IDX (10_state.md R16, R26). -/
abbrev Idx := BitVec 6

end Sys2Proof
end

