-- ==== Sys2Proof/Config.lean ====
section
/-! DEFINITION. The fixed parameters of 00_scope.md R5, the open parameters of R6 that are no argument of the
model, and the one free value. -/

namespace Sys2Proof.Config

/-- FRAME_LEN, the bitstream length (00_scope.md R5). N_LUT = 3, LUT_ENTRIES = 16, DFF_W = 2 and ARG_WIDTH_BITS = 5
are the shape and the widths of `Record`, `Bus16` and `Width`; LUT_ADDR_W is of the out-of-scope read-back only. -/
abbrev frameLen : Nat := 56

/-- EN_CYCLES, the clock cycles of the enable step (00_scope.md R5). -/
abbrev enCycles : Nat := 2

/-- RST_CYCLES, the clock cycles of the reset step (00_scope.md R5). -/
abbrev rstCycles : Nat := 1

/-- PASSES, the number of load passes (00_scope.md R5). -/
abbrev passes : Nat := 2

/-- CODEC_W_MAX, the largest codec width (00_scope.md R5, 92_eei_decisions.md D3). -/
abbrev codecWMax : Nat := 16

/-- FREE VALUE (log 1). The value of the n-th sample of a `dut_so` that the spec does not determine: undriven
(70_reset_and_hazards.md R126), not settled (R130), or driven by a device other than the reference device. It has no
body, so no proof can see it: 93_implementation_defined.md U3 says 'any value' for each sample. -/
opaque freeSample : Nat → Bool

/-- T_UNIT, the physical duration of one tick, open (00_scope.md R6, 92_eei_decisions.md D26). No rule depends on it. -/
opaque tUnit : Nat

/-- The period of `dut_clk` during a RUN, two ticks (70_reset_and_hazards.md R138). -/
def dutClkPeriod : Nat := 2 * tUnit

end Sys2Proof.Config
end

