-- ==== Sys2Proof/Syntax.lean ====
section
/-! DEFINITION. What the host says to BSWV: the record (30_encoding.md R56), the eight commands (R51), the input
ports of one tick (10_state.md R13), and the lines of a host program (40_commands.md R69, R70). -/

namespace Sys2Proof

/-- The structured configuration (00_scope.md R12, 30_encoding.md R56): the nine `rec_*` ports, and the nine REC
registers of 10_state.md R23. Every invariant of the source holds by width. -/
structure Record where
  dff1    : BitVec 2
  dff0    : BitVec 2
  feed1_3 : Bool
  lut2    : Bus16
  lut1    : Bus16
  lut0    : Bus16
  feed0_3 : Bool
  main2   : Bool
  main3   : Bool
deriving DecidableEq, Repr

/-- Every field 0: the value of `rec_*` ports a line does not name (40_commands.md R69), and REC at reset. -/
def Record.zero : Record := ⟨0, 0, false, 0, 0, 0, false, false, false⟩

/-- One constructor per row of spec/opcode_table.json, with the operands that 30_encoding.md R52 says it reads. -/
inductive Instr where
  /-- NOP, 000 (40_commands.md R67). -/
  | nop
  /-- ENC, 001: value and width (41_codec.md R75). -/
  | enc (v : Bus16) (w : Width)
  /-- DEC, 010: sequence bus and width (41_codec.md R76). -/
  | dec (s : Bus16) (w : Width)
  /-- PACK, 011: the record operand (41_codec.md R77). -/
  | pack (r : Record)
  /-- LDFB, 100: the frame operand (41_codec.md R78). -/
  | ldfb (f : Frame)
  /-- UNPK, 101: no port is read (41_codec.md R79). -/
  | unpk
  /-- RUN, 110: no port is read (42_protocol.md R87). -/
  | run
  /-- The reserved code, 111 (40_commands.md R68). -/
  | rsvd
deriving DecidableEq, Repr

/-- The host-side input ports in one tick (10_state.md R13). `clk` is the tick itself and `dut_so` comes from the
device, so neither is a field. With `cmdValid` this is a command in the format of 30_encoding.md R50. -/
structure Ports where
  rst      : Bool
  cmdValid : Bool
  cmdOp    : BitVec 3
  argValue : Bus16
  argWidth : Width
  argFb    : Frame
  recIn    : Record
deriving DecidableEq, Repr

/-- A tick in which the host presents nothing: `cmd_valid` = 0, `rst` = 0, every operand port 0. -/
def Ports.quiet : Ports := ⟨false, false, 0, 0, 0, 0, Record.zero⟩

/-- A line of a host program (40_commands.md R69) or a pseudo-instruction (R70). -/
inductive HostLine where
  /-- An ordinary line: the command, presented for one tick. -/
  | cmd (i : Instr)
  /-- `.cmd <op3>, ...`: a raw encoding with any operand ports. -/
  | raw (op : BitVec 3) (argValue : Bus16) (argWidth : Width) (argFb : Frame) (recIn : Record)
  /-- `IDLE <n>`: n ticks with `cmd_valid` = 0. -/
  | idle (n : Nat)
  /-- `WAIT`: ticks with `cmd_valid` = 0 for as long as BUSY = 1. -/
  | wait
  /-- `RUNREC`: PACK, then RUN, then WAIT. -/
  | runRec (r : Record)
  /-- `RUNRAW`: LDFB, then RUN, then WAIT. -/
  | runRaw (f : Frame)
deriving DecidableEq, Repr

end Sys2Proof
end

