-- ==== Sys2Proof/WellFormed.lean ====
section
/-! DEFINITION. Which commands use no reserved and no illegal encoding (30_encoding.md R62). An ill-formed command is
still a command: it is accepted, and it completes with ERR_CMD or ERR_WIDTH (60_exceptions.md R109, R110). -/

namespace Sys2Proof

/-- The legal codec widths, 1 to CODEC_W_MAX (30_encoding.md R53). -/
def Width.legal (w : Width) : Bool := decide (1 ≤ w.toNat) && decide (w.toNat ≤ Config.codecWMax)

/-- No reserved code and no illegal width (30_encoding.md R62 (a), (b)). Every other operand value is legal
(R55, R56). -/
def Instr.wellFormed : Instr → Bool
  | .nop => true
  | .enc _ w => Width.legal w
  | .dec _ w => Width.legal w
  | .pack _ => true
  | .ldfb _ => true
  | .unpk => true
  | .run => true
  | .rsvd => false

end Sys2Proof
end

