-- ==== Sys2Proof/Decode.lean ====
section
/-! DEFINITION. Decoding the input ports of one tick into a command, and the encoder (30_encoding.md R50 to R56, R63).
The decoder needs only `{cmd_valid, cmd_op}` and then takes the operand ports that R52 marks for the operation. -/

namespace Sys2Proof

/-- Why the ports of a tick are no command. -/
inductive DecodeError where
  /-- `cmd_valid` = 0 (30_encoding.md R50: such a tick presents no command). -/
  | noCommand
deriving DecidableEq, Repr

/-- The operation code of a command (30_encoding.md R51). -/
def Instr.opcode : Instr → BitVec 3
  | .nop => 0b000#3
  | .enc _ _ => 0b001#3
  | .dec _ _ => 0b010#3
  | .pack _ => 0b011#3
  | .ldfb _ => 0b100#3
  | .unpk => 0b101#3
  | .run => 0b110#3
  | .rsvd => 0b111#3

/-- The operation that a code selects, with the operand ports it reads (30_encoding.md R51, R52). -/
def decodeOp (op : BitVec 3) (p : Ports) : Instr :=
  match op.toFin with
  | 0 => .nop
  | 1 => .enc p.argValue p.argWidth
  | 2 => .dec p.argValue p.argWidth
  | 3 => .pack p.recIn
  | 4 => .ldfb p.argFb
  | 5 => .unpk
  | 6 => .run
  | 7 => .rsvd

/-- The command that the ports of a tick present (30_encoding.md R50). Total: all eight codes are commands, the
reserved one too (R62 (a)); a tick with `cmd_valid` = 0 is refused by name. -/
def decode (p : Ports) : Except DecodeError Instr :=
  if p.cmdValid then .ok (decodeOp p.cmdOp p) else .error .noCommand

/-- The operand ports a line for this command drives; every port it does not name is 0 (40_commands.md R69). -/
def Instr.operandPorts : Instr → Ports
  | .nop => Ports.quiet
  | .enc v w => { Ports.quiet with argValue := v, argWidth := w }
  | .dec s w => { Ports.quiet with argValue := s, argWidth := w }
  | .pack r => { Ports.quiet with recIn := r }
  | .ldfb f => { Ports.quiet with argFb := f }
  | .unpk => Ports.quiet
  | .run => Ports.quiet
  | .rsvd => Ports.quiet

/-- The port values that present a command for one tick (30_encoding.md R50, 40_commands.md R69). -/
def encode (i : Instr) : Ports :=
  { i.operandPorts with cmdValid := true, cmdOp := i.opcode }

/-- The 4-bit pattern `{V, O[2:0]}` of spec/opcode_table.json, V in bit 3 (30_encoding.md R50). -/
def Ports.pattern (p : Ports) : BitVec 4 := BitVec.cons p.cmdValid p.cmdOp

/-- The ports that drive a 4-bit pattern `{V, O[2:0]}` with every operand port 0 and `rst` = 0. -/
def Ports.ofPattern (b : BitVec 4) : Ports :=
  { Ports.quiet with cmdValid := b.getLsbD 3, cmdOp := b.extractLsb' 0 3 }

/-- The ports that a table word stands for: its bits below `nbits`, of which bits 3..0 are the pattern. A command has
no word beyond its pattern (30_encoding.md R50, R63), so bits 4 and up of a whole-byte word carry nothing (log 9). -/
def Ports.ofTableWord (nbits w : Nat) : Ports := Ports.ofPattern (BitVec.ofNat 4 (w % 2 ^ nbits))

/-- The instruction the decoder reads from a word numbered as spec/opcode_table.json numbers it. -/
def decodeTableWord (nbits w : Nat) : Option Instr := (decode (Ports.ofTableWord nbits w)).toOption

end Sys2Proof
end

