-- ==== Sys2Proof/Machine/State.lean ====
section
/-! DEFINITION. The state of BSWV (10_state.md R15 to R32), the attached device (20_memory.md R40), what the host is
going to present, the reasons a step can stop (there are none that a step uses), and the state after reset
(70_reset_and_hazards.md R124). Plain data throughout. -/

namespace Sys2Proof.Machine

/-- FSM, the controller state: the nine states of 10_state.md R15 (30_encoding.md R62 (e): a model represents only
these; log 5). -/
inductive Fsm where
  | idle | enLo | enHi | rstLo | rstHi | p1Lo | p1Hi | p2Lo | p2Hi
deriving DecidableEq, Repr

/-- RESULT, the outcome code (10_state.md R25, 30_encoding.md R60). Codes 6 and 7 are never written and have no
constructor (93_implementation_defined.md V6; log 5). -/
inductive Result where
  | none | ok | errP1 | errP2 | errCmd | errWidth
deriving DecidableEq, Repr

/-- What drives `dut_so`. -/
inductive Device where
  /-- The reference device (20_memory.md R40): `q` is q[0] .. q[L_DEV-1], so L_DEV is its length. -/
  | reference (q : List Bool)
  /-- Anything whose serial-out the spec does not give: undriven (70_reset_and_hazards.md R126), unsettled (R130) or
  another device. `drawn` is the MODEL's counter of samples taken so far; sample n reads `Config.freeSample n`
  (log 1). -/
  | unspecified (drawn : Nat)
deriving DecidableEq, Repr

/-- One element of what the host is going to present. -/
inductive HostItem where
  /-- The port values of one tick. -/
  | tick (p : Ports)
  /-- WAIT (40_commands.md R70): no command for as long as BUSY = 1, and no tick at all once BUSY = 0. -/
  | wait
deriving DecidableEq, Repr

/-- The faults of the machine: none. BSWV has no traps (60_exceptions.md, opening) and every error is a RESULT code
in an ordinary next state (R106), so no constructor is raised by anyone; nothing here is safe or unsafe. -/
inductive Fault
deriving DecidableEq, Repr

/-- The refusals of the machine. -/
inductive Refusal where
  /-- Raised by an arm of exec that has no meaning yet; safe. No arm raises it: every command is modelled. -/
  | notModelled (mnemonic : String)
deriving DecidableEq, Repr

/-- Everything that one tick reads and writes. -/
structure State where
  /-- FSM (10_state.md R15). -/
  fsm : Fsm
  /-- IDX (R16). -/
  idx : Idx
  /-- ECNT (R17). -/
  ecnt : Bool
  /-- FB, position-indexed (R18). -/
  fb : Frame
  /-- SEQ, position-indexed (R19). -/
  seq : Bus16
  /-- LEN (R20). -/
  len : Width
  /-- OVF (R21). -/
  ovf : Bool
  /-- VAL (R22). -/
  val : Bus16
  /-- REC_DFF1 .. REC_MAIN3, the nine registers of R23. -/
  recReg : Record
  /-- DONE (R24). -/
  done : Bool
  /-- RESULT (R25). -/
  result : Result
  /-- FAIL_IDX (R26). -/
  failIdx : Idx
  /-- FAIL_EXP (R27). -/
  failExp : Bool
  /-- FAIL_OBS (R28). -/
  failObs : Bool
  /-- DCLK, drives `dut_clk` (R29). -/
  dclk : Bool
  /-- DRST, drives `dut_rst` (R30). -/
  drst : Bool
  /-- DEN, drives `dut_en` (R31). -/
  den : Bool
  /-- DSI, drives `dut_si` (R32). -/
  dsi : Bool
  /-- The attached device: environment (20_memory.md R40). -/
  device : Device
  /-- What the host presents from this tick on: environment (10_state.md R13, 40_commands.md R69, R70). -/
  script : List HostItem
deriving DecidableEq, Repr

/-- The state right after a block reset (70_reset_and_hazards.md R124). The device is no register of BSWV and no
reference device is attached here, so every sample is a free draw (log 2); the host presents nothing (log 3). -/
def State.reset : State where
  fsm := .idle
  idx := 0
  ecnt := false
  fb := 0
  seq := 0
  len := 0
  ovf := false
  val := 0
  recReg := Record.zero
  done := false
  result := .none
  failIdx := 0
  failExp := false
  failObs := false
  dclk := false
  drst := false
  den := false
  dsi := false
  device := .unspecified 0
  script := []

/-- The state right after a block reset with a reference device attached: L_DEV is `devInit.length` and DEV_INIT is
`devInit`, the two open parameters a model takes as an argument (00_scope.md R6, 20_memory.md R40). -/
def State.resetWith (devInit : List Bool) : State :=
  { State.reset with device := .reference devInit }

end Sys2Proof.Machine
end

