-- ==== Sys2Proof/Machine/Operands.lean ====
section
/-! DEFINITION. The codec functions and the frame format: the bit-field helpers, Encode and Decode (41_codec.md R71,
R72), Pack and Unpack (R73, R74, 30_encoding.md R58), sequences as lists (00_scope.md R8) and the word view of a frame
(20_memory.md R36, 30_encoding.md R59). Pure functions of their arguments. -/

namespace Sys2Proof.Machine

/-- The n-bit vector whose bit i is `f i`. -/
def bitsOf : (n : Nat) → (Nat → Bool) → BitVec n
  | 0, _ => 0#0
  | n + 1, f => BitVec.cons (f n) (bitsOf n f)

/-- The sequence of length n whose element k is bus bit k (20_memory.md R36). -/
def elements {m : Nat} (n : Nat) (x : BitVec m) : List Bool := (List.range n).map fun k => x.getLsbD k

/-- Encode(v, w), position-indexed: element k is bit w-1-k of v for k < w, and bits at or above w are 0
(41_codec.md R71, 92_eei_decisions.md D5). -/
def encodeSeq (v : Bus16) (w : Nat) : Bus16 :=
  bitsOf 16 fun k => decide (k < w) && v.getLsbD (w - 1 - k)

/-- Encode(v, w) as a sequence: `< v[w-1], ..., v[0] >` (41_codec.md R71). -/
def encodeList {n : Nat} (v : BitVec n) (w : Nat) : List Bool := (List.range w).map fun k => v.getLsbD (w - 1 - k)

/-- The source's loop of 41_codec.md R71: halve the mask first, then test, until the mask 1 has been tested. `fuel`
bounds the rounds; a round is one turn of the `repeat`. -/
def encodeLoopFrom (v : Bus16) : (fuel mask k : Nat) → Bus16 → Bus16
  | 0, _, _, acc => acc
  | fuel + 1, mask, k, acc =>
    let mask' := mask / 2
    let acc' := if v.toNat &&& mask' ≠ 0 then acc ||| BitVec.twoPow 16 k else acc
    if mask' = 1 then acc' else encodeLoopFrom v fuel mask' (k + 1) acc'

/-- Encode(v, w) by the source's loop, started with S = 0, mask = 2^w and k = 0 (41_codec.md R71). -/
def encodeLoop (v : Bus16) (w : Nat) : Bus16 := encodeLoopFrom v Config.codecWMax (2 ^ w) 0 0

/-- The sum of 41_codec.md R72: over k = 0 .. w-1, element k times 2^(w-1-k). -/
def decodeSum (s : Bus16) (w : Nat) : Nat :=
  ((List.range w).map fun k => (s.getLsbD k).toNat * 2 ^ (w - 1 - k)).sum

/-- Decode(S, w) (41_codec.md R72); the sum is below 2^w, so it fits VAL for every legal w (R86). -/
def decodeSeq (s : Bus16) (w : Nat) : Bus16 := BitVec.ofNat 16 (decodeSum s w)

/-- Elem(r, i), the record bit that frame element i holds (30_encoding.md R58). -/
def elem (r : Record) (i : Nat) : Bool :=
  if i ≤ 1 then r.dff1.getLsbD (1 - i)
  else if i ≤ 3 then r.dff0.getLsbD (3 - i)
  else if i = 4 then r.feed1_3
  else if i ≤ 20 then r.lut2.getLsbD (20 - i)
  else if i ≤ 36 then r.lut1.getLsbD (36 - i)
  else if i ≤ 52 then r.lut0.getLsbD (52 - i)
  else if i = 53 then r.feed0_3
  else if i = 54 then r.main2
  else r.main3

/-- Pack(r), flatten: element i is Elem(r, i) (41_codec.md R73). -/
def pack (r : Record) : Frame := bitsOf 56 (elem r)

/-- Unpack(F), unflatten (41_codec.md R74). -/
def unpack (f : Frame) : Record where
  dff1 := bitsOf 2 fun a => f.getLsbD (1 - a)
  dff0 := bitsOf 2 fun a => f.getLsbD (3 - a)
  feed1_3 := f.getLsbD 4
  lut2 := bitsOf 16 fun a => f.getLsbD (20 - a)
  lut1 := bitsOf 16 fun a => f.getLsbD (36 - a)
  lut0 := bitsOf 16 fun a => f.getLsbD (52 - a)
  feed0_3 := f.getLsbD 53
  main2 := f.getLsbD 54
  main3 := f.getLsbD 55

/-- FW, the word view of a frame: element i at bit 55-i (20_memory.md R36). Never stored or driven. -/
def wordView (f : Frame) : BitVec 56 := bitsOf 56 fun j => f.getLsbD (55 - j)

end Sys2Proof.Machine
end

