-- ==== Sys2Proof/Machine/Flags.lean ====
section
/-! DEFINITION. The flags, the register codes, the status word and the output ports (10_state.md R13, R21, R33;
30_encoding.md R60, R61). -/

namespace Sys2Proof.Machine

/-- OVF of ENC: the value has a set bit at or above position w (41_codec.md R75, 10_state.md R21). -/
def encodeOverflow (v : Bus16) (w : Nat) : Bool := decide (v >>> w ≠ 0)

/-- The 4-bit code of a controller state (10_state.md R15). -/
def Fsm.code : Fsm → BitVec 4
  | .idle => 0x0#4
  | .enLo => 0x1#4
  | .enHi => 0x2#4
  | .rstLo => 0x3#4
  | .rstHi => 0x4#4
  | .p1Lo => 0x5#4
  | .p1Hi => 0x6#4
  | .p2Lo => 0x7#4
  | .p2Hi => 0x8#4

/-- The 3-bit code of an outcome (30_encoding.md R60). -/
def Result.code : Result → BitVec 3
  | .none => 0#3
  | .ok => 1#3
  | .errP1 => 2#3
  | .errP2 => 3#3
  | .errCmd => 4#3
  | .errWidth => 5#3

/-- BUSY = (FSM != IDLE) (10_state.md R33). -/
def State.busy (s : State) : Bool := decide (s.fsm ≠ .idle)

/-- cmd_ready = NOT BUSY (10_state.md R33). -/
def State.cmdReady (s : State) : Bool := !s.busy

/-- The status word: {00, FAIL_OBS, FAIL_EXP, FAIL_IDX[5:0], OVF, RESULT[2:0], DONE, BUSY} (30_encoding.md R61,
92_eei_decisions.md D23). -/
def State.status (s : State) : BitVec 16 :=
  0#2 ++ BitVec.ofBool s.failObs ++ BitVec.ofBool s.failExp ++ s.failIdx ++ BitVec.ofBool s.ovf ++ s.result.code ++
    BitVec.ofBool s.done ++ BitVec.ofBool s.busy

/-- The output ports in one tick (10_state.md R13). -/
structure Outputs where
  cmdReady : Bool
  status   : BitVec 16
  resSeq   : Bus16
  resLen   : Width
  resVal   : Bus16
  fbOut    : Frame
  recOut   : Record
  dutClk   : Bool
  dutRst   : Bool
  dutEn    : Bool
  dutSi    : Bool
  dbgState : BitVec 4
  dbgIdx   : Idx
deriving DecidableEq, Repr

/-- Every output is a register, or the fixed wiring of 10_state.md R33 over registers; none depends on an input of the
same tick (R13). -/
def State.outputs (s : State) : Outputs where
  cmdReady := s.cmdReady
  status := s.status
  resSeq := s.seq
  resLen := s.len
  resVal := s.val
  fbOut := s.fb
  recOut := s.recReg
  dutClk := s.dclk
  dutRst := s.drst
  dutEn := s.den
  dutSi := s.dsi
  dbgState := s.fsm.code
  dbgIdx := s.idx

end Sys2Proof.Machine
end

