-- ==== Sys2Proof/Machine/Ops.lean ====
section
/-! DEFINITION. The shared operations: the attached device (20_memory.md R41 to R43), entering a controller state
(42_protocol.md R89), Fail (60_exceptions.md R114), the block reset (70_reset_and_hazards.md R124), and the two ends
of a command (40_commands.md R64, R66). -/

namespace Sys2Proof.Machine

/-! ### The device -/

/-- `dut_so` of this tick, given `dut_si` of the same tick (20_memory.md R41): the last stage; with no stage, a wire
from `dut_si`; the next free draw where the spec does not determine it (log 1). -/
def Device.serialOut (d : Device) (si : Bool) : Bool :=
  match d with
  | .reference [] => si
  | .reference (b :: q) => (b :: q).getLast (List.cons_ne_nil b q)
  | .unspecified n => Config.freeSample n

/-- The device after one sample of its serial-out: sampling has no effect on it (20_memory.md R39); where samples are
free draws, the next sample is a new draw. -/
def Device.sampled : Device → Device
  | .reference q => .reference q
  | .unspecified n => .unspecified (n + 1)

/-- A rising edge of `dut_clk` (20_memory.md R42): reset clears, whatever enable is; else enable shifts `si` in at
stage 0; else nothing. A register of no stage has no state. -/
def Device.edge (rst en si : Bool) : Device → Device
  | .reference q =>
    if rst then .reference (q.map fun _ => false)
    else if en then .reference ((si :: q).take q.length)
    else .reference q
  | .unspecified n => .unspecified n

/-- `dut_so` in this tick: what `Sample()` reads (00_scope.md R10, 20_memory.md R44). -/
def State.sample (s : State) : Bool := s.device.serialOut s.dsi

/-- The boundary between tick t (`s`) and tick t+1 (`t`) is a rising edge of `dut_clk` exactly when DCLK goes from 0
to 1 (20_memory.md R43). -/
def risingEdge (s t : State) : Bool := !s.dclk && t.dclk

/-! ### Entering a controller state -/

/-- The column DCLK of 42_protocol.md R89; `hold` is the value DCLK has. -/
def Fsm.dclkRow (hold : Bool) : Fsm → Bool
  | .idle => hold
  | .enLo | .rstLo | .p1Lo | .p2Lo => false
  | .enHi | .rstHi | .p1Hi | .p2Hi => true

/-- The column DRST of 42_protocol.md R89. -/
def Fsm.drstRow : Fsm → Bool
  | .rstLo | .rstHi => true
  | .idle | .enLo | .enHi | .p1Lo | .p1Hi | .p2Lo | .p2Hi => false

/-- The column DEN of 42_protocol.md R89. -/
def Fsm.denRow : Fsm → Bool
  | .idle => false
  | .enLo | .enHi | .rstLo | .rstHi | .p1Lo | .p1Hi | .p2Lo | .p2Hi => true

/-- The column DSI of 42_protocol.md R89; `b` is FB[IDX']. -/
def Fsm.dsiRow (b : Bool) : Fsm → Bool
  | .p1Lo | .p1Hi | .p2Lo | .p2Hi => b
  | .idle | .enLo | .enHi | .rstLo | .rstHi => false

/-- FB[IDX], the current element. -/
def State.element (s : State) : Bool := s.fb.getLsbD s.idx.toNat

/-- `enter X` (42_protocol.md R89): FSM and the four output registers. IDX is written before, so that `s.element` is
FB[IDX']. -/
def State.enter (s : State) (x : Fsm) : State :=
  { s with
    fsm := x
    dclk := x.dclkRow s.dclk
    drst := x.drstRow
    den := x.denRow
    dsi := x.dsiRow s.element }

/-! ### The abort, and the block reset -/

/-- `raise Fail(code, idx, exp, obs)` (60_exceptions.md R114): the report is saved, DONE is set, and control goes to
IDLE with DCLK held. There is no return from it: BSWV is then ready for the next command (R115). -/
def State.raiseFail (s : State) (code : Result) (idx : Idx) (exp obs : Bool) : State :=
  State.enter { s with result := code, failIdx := idx, failExp := exp, failObs := obs, done := true } .idle

/-- A tick with `rst` = 1 (70_reset_and_hazards.md R124): every register takes its reset value; the device and what
the host presents are no registers of BSWV. -/
def State.blockReset (s : State) : State :=
  { State.reset with device := s.device, script := s.script }

/-! ### The two ends of a command -/

/-- An accepted command other than NOP first clears DONE (40_commands.md R64). -/
def State.accept (s : State) : State := { s with done := false }

/-- A command completes with a code (40_commands.md R66). -/
def State.complete (s : State) (code : Result) : State := { s with done := true, result := code }

end Sys2Proof.Machine
end

