-- ==== Sys2Proof/Machine/Controller.lean ====
section
/-! DEFINITION. The controller: one transition per state (42_protocol.md R90 to R98), the tick it makes with the
device, and the tick in which the host presents a command. -/

namespace Sys2Proof.Machine

/-- EN_LO (42_protocol.md R90). -/
def State.tickEnLo (s : State) : State := s.enter .enHi

/-- EN_HI (42_protocol.md R91). -/
def State.tickEnHi (s : State) : State :=
  if s.ecnt then s.enter .rstLo else State.enter { s with ecnt := true } .enLo

/-- RST_LO (42_protocol.md R92). -/
def State.tickRstLo (s : State) : State := s.enter .rstHi

/-- RST_HI (42_protocol.md R93). -/
def State.tickRstHi (s : State) : State := State.enter { s with idx := 0 } .p1Lo

/-- P1_LO, the pass-1 check (42_protocol.md R94). -/
def State.tickP1Lo (s : State) : State :=
  if s.sample then s.raiseFail .errP1 s.idx false s.sample else s.enter .p1Hi

/-- P1_HI (42_protocol.md R95). -/
def State.tickP1Hi (s : State) : State :=
  if s.idx.toNat < 55 then State.enter { s with idx := s.idx + 1 } .p1Lo
  else State.enter { s with idx := 0 } .p2Lo

/-- P2_LO, the pass-2 check (42_protocol.md R96). -/
def State.tickP2Lo (s : State) : State :=
  if s.sample ≠ s.element then s.raiseFail .errP2 s.idx s.element s.sample else s.enter .p2Hi

/-- P2_HI (42_protocol.md R97). -/
def State.tickP2Hi (s : State) : State :=
  if s.idx.toNat < 55 then State.enter { s with idx := s.idx + 1 } .p2Lo
  else (s.complete .ok).enter .idle

/-- The registers after one controller transition; IDLE does nothing (42_protocol.md R98). -/
def State.transition (s : State) : State :=
  match s.fsm with
  | .idle => s
  | .enLo => s.tickEnLo
  | .enHi => s.tickEnHi
  | .rstLo => s.tickRstLo
  | .rstHi => s.tickRstHi
  | .p1Lo => s.tickP1Lo
  | .p1Hi => s.tickP1Hi
  | .p2Lo => s.tickP2Lo
  | .p2Hi => s.tickP2Hi

/-- The states whose tick samples `dut_so` (20_memory.md R39). -/
def Fsm.samples : Fsm → Bool
  | .p1Lo | .p2Lo => true
  | .idle | .enLo | .enHi | .rstLo | .rstHi | .p1Hi | .p2Hi => false

/-- The device in tick t+1, where `s` is tick t and `t` holds the registers of tick t+1: sampled if this tick samples,
then clocked if the boundary is a rising edge, with the values of tick t (20_memory.md R42, R43; log 6). -/
def deviceAfter (s t : State) : Device :=
  let d := if s.fsm.samples then s.device.sampled else s.device
  if risingEdge s t then d.edge s.drst s.den s.dsi else d

/-- One tick of the controller and the device with `rst` = 0 and no accepted command. -/
def State.controllerTick (s : State) : State :=
  { s.transition with device := deviceAfter s s.transition }

/-- The tick in which the host presents a command with `rst` = 0. It is accepted exactly when FSM = IDLE
(40_commands.md R64), and then `effect` is all that happens, since no command makes a device edge (42_protocol.md R98,
R99). Otherwise it is dropped, and the tick is the controller's own (R65). -/
def State.present (s : State) (effect : State → State) : Host.Outcome State Fault Refusal :=
  if s.fsm = .idle then .next (effect s) else .next s.controllerTick

end Sys2Proof.Machine
end

