-- ==== Sys2Proof/Machine/Codec.lean ====
section
/-! DEFINITION. The codec commands (41_codec.md section 2). -/

namespace Sys2Proof.Machine

/-- ENC (41_codec.md R75): a legal width writes SEQ, LEN and OVF; an illegal one writes none of them and completes
with ERR_WIDTH. -/
def execEnc (v : Bus16) (w : Width) (s : State) : Host.Outcome State Fault Refusal :=
  s.present fun s =>
    if Width.legal w then
      State.complete
        { s.accept with seq := encodeSeq v w.toNat, len := w, ovf := encodeOverflow v w.toNat } .ok
    else s.accept.complete .errWidth

/-- DEC (41_codec.md R76): a legal width writes VAL; an illegal one completes with ERR_WIDTH. -/
def execDec (q : Bus16) (w : Width) (s : State) : Host.Outcome State Fault Refusal :=
  s.present fun s =>
    if Width.legal w then State.complete { s.accept with val := decodeSeq q w.toNat } .ok
    else s.accept.complete .errWidth

/-- PACK (41_codec.md R77): FB <- Pack(r). -/
def execPack (r : Record) (s : State) : Host.Outcome State Fault Refusal :=
  s.present fun s => State.complete { s.accept with fb := pack r } .ok

/-- LDFB (41_codec.md R78): FB <- arg_fb. -/
def execLdfb (f : Frame) (s : State) : Host.Outcome State Fault Refusal :=
  s.present fun s => State.complete { s.accept with fb := f } .ok

/-- UNPK (41_codec.md R79): REC <- Unpack(FB), FB unchanged. -/
def execUnpk (s : State) : Host.Outcome State Fault Refusal :=
  s.present fun s => State.complete { s.accept with recReg := unpack s.fb } .ok

end Sys2Proof.Machine
end

