-- ==== Sys2Proof/Machine/Commands.lean ====
section
/-! DEFINITION. NOP and the reserved code (40_commands.md section 2). -/

namespace Sys2Proof.Machine

/-- NOP writes no register, DONE and RESULT included (40_commands.md R67). -/
def execNop (s : State) : Host.Outcome State Fault Refusal := s.present fun s => s

/-- The reserved code 111 completes with ERR_CMD and has no other effect (40_commands.md R68). -/
def execRsvd (s : State) : Host.Outcome State Fault Refusal := s.present fun s => s.accept.complete .errCmd

end Sys2Proof.Machine
end

