-- ==== Sys2Proof/Machine/Protocol.lean ====
section
/-! DEFINITION. RUN (42_protocol.md R87), and the protocol as a pure function (R100, R101). -/

namespace Sys2Proof.Machine

/-- RUN, its acceptance tick (42_protocol.md R87): the outcome and the report are cleared, IDX and ECNT start at 0,
and EN_LO is entered. The rest of the RUN is one `State.controllerTick` per tick (R90 to R97). -/
def execRun (s : State) : Host.Outcome State Fault Refusal :=
  s.present fun s =>
    State.enter
      { s.accept with
        result := .none, failIdx := 0, failExp := false, failObs := false, idx := 0, ecnt := false } .enLo

/-- What a device samples at one rising edge of `dut_clk` (42_protocol.md R100). -/
structure Edge where
  rst : Bool
  en  : Bool
  si  : Bool
deriving DecidableEq, Repr

/-- The 115 edges of a passing RUN on frame f, in order (42_protocol.md R100): two enable cycles, one reset cycle,
and the frame twice. -/
def runEdges (f : Frame) : List Edge :=
  List.replicate Config.enCycles ⟨false, true, false⟩ ++ List.replicate Config.rstCycles ⟨true, true, false⟩ ++
    (List.replicate Config.passes (elements Config.frameLen f)).flatten.map fun b => ⟨false, true, b⟩

/-- A device after a sequence of rising edges (20_memory.md R42). -/
def Device.edges (d : Device) (es : List Edge) : Device := es.foldl (fun d e => d.edge e.rst e.en e.si) d

/-- s(e), the bit shifted at data edge e of a RUN on frame f, e < 112 (42_protocol.md R101). -/
def shiftedBit (f : Frame) (e : Nat) : Bool := f.getLsbD (if e < 56 then e else e - 56)

/-- so(e), what serial-out of a device of length l shows just before data edge e (42_protocol.md R101). -/
def serialOutAt (l : Nat) (f : Frame) (e : Nat) : Bool :=
  if l = 0 then shiftedBit f e else if l ≤ e then shiftedBit f (e - l) else false

/-- RESULT, FAIL_IDX, FAIL_EXP and FAIL_OBS: how a RUN ended. -/
structure Report where
  result  : Result
  failIdx : Idx
  failExp : Bool
  failObs : Bool
deriving DecidableEq, Repr

/-- The report that the registers hold. -/
def State.report (s : State) : Report := ⟨s.result, s.failIdx, s.failExp, s.failObs⟩

/-- Verify(L, F) (42_protocol.md R101): the pass-1 checks in order, then the pass-2 checks in order; the first that
fails is the report. -/
def verify (l : Nat) (f : Frame) : Report :=
  match (List.range 56).find? (fun i => serialOutAt l f i) with
  | some i => ⟨.errP1, BitVec.ofNat 6 i, false, serialOutAt l f i⟩
  | none =>
    match (List.range 56).find? (fun i => decide (serialOutAt l f (56 + i) ≠ f.getLsbD i)) with
    | some i => ⟨.errP2, BitVec.ofNat 6 i, f.getLsbD i, serialOutAt l f (56 + i)⟩
    | none => ⟨.ok, 0, false, false⟩

end Sys2Proof.Machine
end

