-- ==== Sys2Proof/Machine/Dispatch.lean ====
section
/-! DEFINITION. One arm per command: the tick in which the host presents it with `rst` = 0. -/

namespace Sys2Proof.Machine

def exec (i : Instr) (s : State) : Host.Outcome State Fault Refusal :=
  match i with
  | .nop => Sys2Proof.Machine.execNop s
  | .enc v w => Sys2Proof.Machine.execEnc v w s
  | .dec q w => Sys2Proof.Machine.execDec q w s
  | .pack r => Sys2Proof.Machine.execPack r s
  | .ldfb f => Sys2Proof.Machine.execLdfb f s
  | .unpk => Sys2Proof.Machine.execUnpk s
  | .run => Sys2Proof.Machine.execRun s
  | .rsvd => Sys2Proof.Machine.execRsvd s

end Sys2Proof.Machine
end

