-- ==== Sys2Proof/Machine/Script.lean ====
section
/-! DEFINITION. The host side: which ports it drives in a tick, and what the lines of a host program stand for
(40_commands.md R69, R70). -/

namespace Sys2Proof.Machine

/-- The ports of this tick and what is left to present. An item is taken each tick; WAIT drives `cmd_valid` = 0 and
stays for as long as BUSY = 1, and takes no tick once BUSY = 0, so that the next item is presented in that tick
(40_commands.md R70); a host with nothing left presents nothing. -/
def hostTick (busy : Bool) : List HostItem → Ports × List HostItem
  | [] => (Ports.quiet, [])
  | .tick p :: rest => (p, rest)
  | .wait :: rest => if busy then (Ports.quiet, .wait :: rest) else hostTick busy rest

/-- The port values in this tick (00_scope.md R9: stable for the whole tick). -/
def State.ports (s : State) : Ports := (hostTick s.busy s.script).1

/-- This tick's port values are used up. -/
def State.presented (s : State) : State := { s with script := (hostTick s.busy s.script).2 }

/-- A line for a command: presented with `cmd_valid` = 1 for exactly one tick (40_commands.md R69). -/
def commandItem (i : Instr) : HostItem := .tick (encode i)

/-- What a line of a host program presents (40_commands.md R69, R70). -/
def hostLineItems : HostLine → List HostItem
  | .cmd i => [commandItem i]
  | .raw op v w f r => [.tick ⟨false, true, op, v, w, f, r⟩]
  | .idle n => List.replicate n (.tick Ports.quiet)
  | .wait => [.wait]
  | .runRec r => [commandItem (.pack r), commandItem .run, .wait]
  | .runRaw f => [commandItem (.ldfb f), commandItem .run, .wait]

/-- A host program: its lines take consecutive ticks (40_commands.md R69). -/
def programItems (lines : List HostLine) : List HostItem := lines.flatMap hostLineItems

/-- The host is about to present a program. -/
def State.withProgram (s : State) (lines : List HostLine) : State := { s with script := programItems lines }

end Sys2Proof.Machine
end

