-- ==== Sys2Proof/Machine/Step.lean ====
section
/-! DEFINITION. One step is one tick of BSWV, the host and the device together (00_scope.md R9, 20_memory.md R46). -/

namespace Sys2Proof.Machine

/-- One tick: the block reset wins (60_exceptions.md R113); a presented command is run, or dropped while busy, by its
own meaning; with no command the tick is the controller's (40_commands.md R67: NOP and a tick with `cmd_valid` = 0
are alike). -/
def step (s : State) : Host.Outcome State Fault Refusal :=
  if s.ports.rst then .next s.presented.blockReset
  else
    match decode s.ports with
    | .ok i => exec i s.presented
    | .error .noCommand => .next s.presented.controllerTick

/-- `s` with the host about to present, in the very next tick, the command that a table word stands for, its operand
ports 0 and `rst` = 0. A command is taken only in IDLE (40_commands.md R64), so a busy controller is put there. -/
def State.withFetchWord (s : State) (nbits w : Nat) : State :=
  let s' := if s.fsm = .idle then s else s.enter .idle
  { s' with script := .tick (Ports.ofTableWord nbits w) :: s.script }

end Sys2Proof.Machine
end

