-- ==== Sys2Proof/Machine/HostText.lean ====
section
/-! DEFINITION. Reading the text of a host program (40_commands.md R69, R70): numbers, sequence literals, record
operands, one command per line. It has no hardware meaning (92_eei_decisions.md D21); a text that is no program is
refused as a whole (log 7). -/

namespace Sys2Proof.Machine

/-- A token of a line. -/
inductive HostToken where
  | word (w : List Char)
  | comma
  | equals
  | leftBrace
  | rightBrace
deriving DecidableEq, Repr

/-- The token of a separator character, if it is one; the braces are characters 123 and 125. -/
def separatorToken (c : Char) : Option HostToken :=
  if c = ',' then some .comma
  else if c = '=' then some .equals
  else if c.toNat = 123 then some .leftBrace
  else if c.toNat = 125 then some .rightBrace
  else none

/-- The word read so far (its characters in reverse), if there is one. -/
def pendingWord (acc : List Char) : List HostToken := if acc = [] then [] else [.word acc.reverse]

/-- The tokens of a line. DESIGN CHOICE (log 7): 40_commands.md R69 does not say which characters separate words; a
blank, a tab and a carriage return do (so a line may end in carriage return and line feed), and every other character
that is no comma, equals sign or brace belongs to a word. -/
def hostTokens : (acc line : List Char) → List HostToken
  | acc, [] => pendingWord acc
  | acc, c :: rest =>
    if c = ' ' ∨ c = '\t' ∨ c = '\r' then pendingWord acc ++ hostTokens [] rest
    else
      match separatorToken c with
      | some t => pendingWord acc ++ t :: hostTokens [] rest
      | none => hostTokens (c :: acc) rest

/-- The value of a digit, in either case for hexadecimal. -/
def digitValue (c : Char) : Option Nat :=
  let n := c.toNat
  if 48 ≤ n ∧ n ≤ 57 then some (n - 48)
  else if 97 ≤ n ∧ n ≤ 102 then some (n - 87)
  else if 65 ≤ n ∧ n ≤ 70 then some (n - 55)
  else none

/-- The number that digits in a base stand for, most significant digit first. -/
def digitsValue (base : Nat) : (acc : Nat) → List Char → Option Nat
  | acc, [] => some acc
  | acc, c :: rest =>
    match digitValue c with
    | some d => if d < base then digitsValue base (acc * base + d) rest else none
    | none => none

/-- The number that at least one digit stands for. -/
def digitsNumber (base : Nat) (ds : List Char) : Option Nat := if ds = [] then none else digitsValue base 0 ds

/-- `seq"<bits>"` after its opening quote: element 0 first, so element k is bus bit k (40_commands.md R69). A literal
with no element stands for 0 (DESIGN CHOICE, log 7). -/
def sequenceValue : (k : Nat) → List Char → Option Nat
  | _, ['"'] => some 0
  | k, c :: rest =>
    match sequenceValue (k + 1) rest with
    | some v => if c = '0' then some v else if c = '1' then some (v + 2 ^ k) else none
    | none => none
  | _, [] => none

/-- A number of 40_commands.md R69: decimal, `0x` hexadecimal, `0b` binary, or a sequence literal. -/
def numberValue : List Char → Option Nat
  | '0' :: 'x' :: ds => digitsNumber 16 ds
  | '0' :: 'b' :: ds => digitsNumber 2 ds
  | 's' :: 'e' :: 'q' :: '"' :: bits => sequenceValue 0 bits
  | ds => digitsNumber 10 ds

/-- A number read as an unsigned integer on an n-bit bus; one that does not fit is refused (log 7). -/
def busValue (n : Nat) (w : List Char) : Option (BitVec n) :=
  match numberValue w with
  | some v => if v < 2 ^ n then some (BitVec.ofNat n v) else none
  | none => none

/-- A number on a one-bit port. -/
def bitValue (w : List Char) : Option Bool := (busValue 1 w).map fun b => b.getLsbD 0

/-- `<field>=<n>` on a record operand; the field names are those of 40_commands.md R69. -/
def recordField (name value : List Char) (r : Record) : Option Record :=
  if name = "dff1".toList then (busValue 2 value).map fun b => { r with dff1 := b }
  else if name = "dff0".toList then (busValue 2 value).map fun b => { r with dff0 := b }
  else if name = "feed1_3".toList then (bitValue value).map fun b => { r with feed1_3 := b }
  else if name = "lut2".toList then (busValue 16 value).map fun b => { r with lut2 := b }
  else if name = "lut1".toList then (busValue 16 value).map fun b => { r with lut1 := b }
  else if name = "lut0".toList then (busValue 16 value).map fun b => { r with lut0 := b }
  else if name = "feed0_3".toList then (bitValue value).map fun b => { r with feed0_3 := b }
  else if name = "main2".toList then (bitValue value).map fun b => { r with main2 := b }
  else if name = "main3".toList then (bitValue value).map fun b => { r with main3 := b }
  else none

/-- `<operand>=<n>` of a `.cmd` line: an operand port by its name in 10_state.md R13. -/
def portOperand (name value : List Char) (p : Ports) : Option Ports :=
  if name = "arg_value".toList then (busValue 16 value).map fun b => { p with argValue := b }
  else if name = "arg_width".toList then (busValue 5 value).map fun b => { p with argWidth := b }
  else if name = "arg_fb".toList then (busValue 56 value).map fun b => { p with argFb := b }
  else if name.take 4 = "rec_".toList then (recordField (name.drop 4) value p.recIn).map fun r => { p with recIn := r }
  else none

/-- A record's list `<field>=<n>, ...`, applied from left to right (40_commands.md R69). -/
def recordAssignments : List HostToken → Record → Option Record
  | [.word n, .equals, .word v], r => recordField n v r
  | .word n :: .equals :: .word v :: .comma :: rest, r =>
    match recordField n v r with
    | some q => recordAssignments rest q
    | none => none
  | _, _ => none

/-- The tokens before a closing brace that ends the line. -/
def beforeRightBrace : List HostToken → Option (List HostToken)
  | [.rightBrace] => some []
  | t :: rest => (beforeRightBrace rest).map fun ts => t :: ts
  | [] => none

/-- A record operand in braces; fields omitted are 0 (40_commands.md R69). Braces with nothing between them stand for
the record that omits every field (DESIGN CHOICE, log 7). -/
def recordOperand : List HostToken → Option Record
  | .leftBrace :: rest =>
    match beforeRightBrace rest with
    | some [] => some Record.zero
    | some ts => recordAssignments ts Record.zero
    | none => none
  | _ => none

/-- The `<op3>` of a `.cmd` line: three binary digits. -/
def rawOpcode (w : List Char) : Option (BitVec 3) :=
  if w.length = 3 then (digitsNumber 2 w).map fun v => BitVec.ofNat 3 v else none

/-- Two numeric operands `<a>, <b>`. -/
def twoOperands (m n : Nat) : List HostToken → Option (BitVec m × BitVec n)
  | [.word a, .comma, .word b] =>
    match busValue m a, busValue n b with
    | some x, some y => some (x, y)
    | _, _ => none
  | _ => none

/-- One numeric operand. -/
def oneOperand (n : Nat) : List HostToken → Option (BitVec n)
  | [.word a] => busValue n a
  | _ => none

/-- No operand. -/
def noOperand (l : HostLine) : List HostToken → Option HostLine
  | [] => some l
  | _ => none

/-- The operands of a `.cmd` line, from left to right. DESIGN CHOICE (log 7): 40_commands.md R69 writes
`[, <operand>=<n> ...]` and does not say how several operands are separated, so a comma and a blank are both taken,
and a comma that nothing follows is refused. -/
def rawOperands : List HostToken → Ports → Option Ports
  | [.word n, .equals, .word v], p => portOperand n v p
  | .word n :: .equals :: .word v :: .comma :: rest, p =>
    match portOperand n v p with
    | some q => rawOperands rest q
    | none => none
  | .word n :: .equals :: .word v :: rest, p =>
    match portOperand n v p with
    | some q => rawOperands rest q
    | none => none
  | _, _ => none

/-- The operands of a `.cmd` line, after its opcode: none, or a comma and the operands (40_commands.md R69). -/
def rawLine (op : BitVec 3) : List HostToken → Option HostLine
  | [] => some (.raw op 0 0 0 Record.zero)
  | .comma :: rest =>
    (rawOperands rest Ports.quiet).map fun p => .raw op p.argValue p.argWidth p.argFb p.recIn
  | _ => none

/-- A line by its first word (40_commands.md R69, R70). -/
def hostLine : List HostToken → Option HostLine
  | .word w :: rest =>
    if w = "NOP".toList then noOperand (.cmd .nop) rest
    else if w = "ENC".toList then (twoOperands 16 5 rest).map fun x => .cmd (.enc x.1 x.2)
    else if w = "DEC".toList then (twoOperands 16 5 rest).map fun x => .cmd (.dec x.1 x.2)
    else if w = "PACK".toList then (recordOperand rest).map fun r => .cmd (.pack r)
    else if w = "LDFB".toList then (oneOperand 56 rest).map fun f => .cmd (.ldfb f)
    else if w = "UNPK".toList then noOperand (.cmd .unpk) rest
    else if w = "RUN".toList then noOperand (.cmd .run) rest
    else if w = "IDLE".toList then
      match rest with
      | [.word n] => (numberValue n).map fun k => .idle k
      | _ => none
    else if w = "WAIT".toList then noOperand .wait rest
    else if w = "RUNREC".toList then (recordOperand rest).map fun r => .runRec r
    else if w = "RUNRAW".toList then (oneOperand 56 rest).map fun f => .runRaw f
    else if w = ".cmd".toList then
      match rest with
      | .word op :: more =>
        match rawOpcode op with
        | some o => rawLine o more
        | none => none
      | _ => none
    else none
  | _ => none

/-- The lines of a text; `acc` is the line read so far, in reverse. DESIGN CHOICE (log 7): 40_commands.md R69 does not
say what ends a line; a line feed or the end of the text does, and a carriage return does not. -/
def textLines : (acc text : List Char) → List (List Char)
  | acc, [] => [acc.reverse]
  | acc, c :: rest => if c = '\n' then acc.reverse :: textLines [] rest else textLines (c :: acc) rest

/-- The lines of a program, in order; a line with no token is blank and stands for nothing (DESIGN CHOICE, log 7). -/
def parseLines : List (List Char) → Option (List HostLine)
  | [] => some []
  | l :: rest =>
    match hostTokens [] l with
    | [] => parseLines rest
    | ts =>
      match hostLine ts, parseLines rest with
      | some x, some xs => some (x :: xs)
      | _, _ => none

/-- A host program from its text (40_commands.md R69). -/
def parseProgram (text : List Char) : Option (List HostLine) := parseLines (textLines [] text)

end Sys2Proof.Machine
end

