-- ==== Sys2Proof/Safety.lean ====
section
/-! DEFINITION. The terms that statements about BSWV use: runs of the machine, acceptance, an undisturbed RUN and its
end, the edges a device sees, and the invariant of the registers. -/

namespace Sys2Proof.Machine

/-- `k` ticks of the machine lead from `s` to `t`, by the host's own notion of a run. -/
def Runs (k : Nat) (s t : State) : Prop := Host.Core.run Sys2Proof.core k s = .next t

/-- In the tick that `s` is, command `i` is accepted (40_commands.md R64): `rst` = 0, `cmd_valid` = 1 with the ports
reading as `i`, and FSM = IDLE. -/
def Accepts (s : State) (i : Instr) : Prop :=
  s.ports.rst = false ∧ decode s.ports = .ok i ∧ s.fsm = .idle

/-- `rst` = 0 from this tick until the command accepted in it has ended (42_protocol.md R102). The other ports are
free. -/
def Undisturbed (s : State) : Prop :=
  ∀ k u, Runs k s u → (∀ j v, 0 < j → j ≤ k → Runs j s v → v.fsm ≠ .idle) → u.ports.rst = false

/-- The command accepted in the tick `s` ends after `n` ticks, in `t`: the first later tick with FSM = IDLE
(70_reset_and_hazards.md R140). -/
def Ends (s : State) (n : Nat) (t : State) : Prop :=
  0 < n ∧ Runs n s t ∧ t.fsm = .idle ∧ ∀ j v, 0 < j → j < n → Runs j s v → v.fsm ≠ .idle

/-- The rising edges of `dut_clk` in the next `k` ticks, oldest first, each with what the device samples
(20_memory.md R43, 42_protocol.md R100). -/
def edgesOver : Nat → State → List Edge
  | 0, _ => []
  | k + 1, s =>
    match step s with
    | .next t => (if risingEdge s t then [⟨s.drst, s.den, s.dsi⟩] else []) ++ edgesOver k t
    | .fault _ => []
    | .refused _ => []

/-- The states in which a pass is under way. -/
def Fsm.inPass : Fsm → Bool
  | .p1Lo | .p1Hi | .p2Lo | .p2Hi => true
  | .idle | .enLo | .enHi | .rstLo | .rstHi => false

/-- The states after both enable cycles. -/
def Fsm.pastEnable : Fsm → Bool
  | .rstLo | .rstHi | .p1Lo | .p1Hi | .p2Lo | .p2Hi => true
  | .idle | .enLo | .enHi => false

/-- What every tick keeps, from any state that has it. -/
structure StateInv (s : State) : Prop where
  /-- DCLK is 0 in every *_LO state and 1 in every *_HI state (10_state.md R29). -/
  dclk : s.dclk = s.fsm.dclkRow s.dclk
  /-- DRST is 1 exactly in RST_LO and RST_HI (10_state.md R30). -/
  drst : s.drst = s.fsm.drstRow
  /-- DEN is 1 in every state other than IDLE (10_state.md R31). -/
  den : s.den = s.fsm.denRow
  /-- DSI is FB[IDX] in the passes and 0 elsewhere (10_state.md R32). -/
  dsi : s.dsi = s.fsm.dsiRow s.element
  /-- IDX never holds 56 to 63 (10_state.md R16). -/
  idx : s.idx.toNat ≤ 55
  /-- IDX is 0 from the acceptance of a RUN to its first pass (42_protocol.md R87, R93). -/
  idxStart : s.fsm ≠ .idle → s.fsm.inPass = false → s.idx = 0
  /-- ECNT is 1 once both enable cycles are done (42_protocol.md R91). -/
  ecnt : s.fsm.pastEnable = true → s.ecnt = true
  /-- While BUSY, DONE = 0 and there is no outcome and no report (42_protocol.md R87, 92_eei_decisions.md D29). -/
  running : s.fsm ≠ .idle → s.done = false ∧ s.report = ⟨.none, 0, false, false⟩
  /-- DONE = 1 exactly when there is an outcome (10_state.md R24, R25). -/
  outcome : s.done = decide (s.result ≠ .none)
  /-- FAIL_IDX holds 0 to 55 (10_state.md R26). -/
  failIdx : s.failIdx.toNat ≤ 55
  /-- After a pass-1 abort the expected bit is 0 and the observed bit 1 (10_state.md R27, R28). -/
  failP1 : s.result = .errP1 → s.failExp = false ∧ s.failObs = true
  /-- After a pass-2 abort the expected bit is FB[FAIL_IDX] and the observed bit its complement (10_state.md R27,
  R28). -/
  failP2 : s.result = .errP2 → s.failExp = s.fb.getLsbD s.failIdx.toNat ∧ s.failObs = !s.failExp
  /-- LEN is at most 16 (10_state.md R20). -/
  len : s.len.toNat ≤ 16
  /-- SEQ is 0 at and above LEN (10_state.md R19). -/
  seqPadding : ∀ k, s.len.toNat ≤ k → s.seq.getLsbD k = false

end Sys2Proof.Machine
end

