-- ==== Sys2Proof/Certificates/Slice0/Obligations.lean ====
section
/-! DEFINITION. The statements about BSWV, for the provers. Each docstring names the rule of spec/ it formalises. -/

open Sys2Proof Sys2Proof.Machine

/-! ### Encoding -/

/-- 30_encoding.md R51: the opcode map, with the operand ports each operation takes; no command when `cmd_valid` = 0. -/
def Obligations.DecodeFollowsTheOpcodeMap : Prop :=
  ∀ p : Ports,
    (p.cmdValid = false → decode p = .error .noCommand) ∧
    (p.cmdValid = true →
      (p.cmdOp = 0b000#3 → decode p = .ok .nop) ∧
      (p.cmdOp = 0b001#3 → decode p = .ok (.enc p.argValue p.argWidth)) ∧
      (p.cmdOp = 0b010#3 → decode p = .ok (.dec p.argValue p.argWidth)) ∧
      (p.cmdOp = 0b011#3 → decode p = .ok (.pack p.recIn)) ∧
      (p.cmdOp = 0b100#3 → decode p = .ok (.ldfb p.argFb)) ∧
      (p.cmdOp = 0b101#3 → decode p = .ok .unpk) ∧
      (p.cmdOp = 0b110#3 → decode p = .ok .run) ∧
      (p.cmdOp = 0b111#3 → decode p = .ok .rsvd))

/-- spec/opcode_table.json: each row's 4-bit pattern, in a whole byte, decodes to its instruction (operands 0). -/
def Obligations.TableWordsDecodeToTheirRows : Prop :=
  decodeTableWord 8 0b1000 = some .nop ∧
  decodeTableWord 8 0b1001 = some (.enc 0 0) ∧
  decodeTableWord 8 0b1010 = some (.dec 0 0) ∧
  decodeTableWord 8 0b1011 = some (.pack Record.zero) ∧
  decodeTableWord 8 0b1100 = some (.ldfb 0) ∧
  decodeTableWord 8 0b1101 = some .unpk ∧
  decodeTableWord 8 0b1110 = some .run ∧
  decodeTableWord 8 0b1111 = some .rsvd ∧
  ∀ w, w < 8 → decodeTableWord 8 w = none

/-- 30_encoding.md sections 1 and 2: the ports that present a command decode to it, with every operand at every
value, and a command has one pattern `{cmd_valid, cmd_op}`. -/
def Obligations.DecodeAndEncodeAgree : Prop :=
  ∀ i : Instr, decode (encode i) = .ok i ∧ (encode i).rst = false ∧
    ∀ p : Ports, decode p = .ok i → p.pattern = (encode i).pattern

/-- 30_encoding.md R52: two ticks that agree on `rst`, on the command and on the operands the operation reads have the
same effect, whatever the other operand ports hold. -/
def Obligations.UnreadOperandPortsAreIgnored : Prop :=
  ∀ (s : State) (p q : Ports) (l : List HostItem),
    p.rst = q.rst → p.cmdValid = q.cmdValid → p.cmdOp = q.cmdOp →
    (p.cmdOp = 0b001#3 ∨ p.cmdOp = 0b010#3 → p.argValue = q.argValue ∧ p.argWidth = q.argWidth) →
    (p.cmdOp = 0b011#3 → p.recIn = q.recIn) →
    (p.cmdOp = 0b100#3 → p.argFb = q.argFb) →
    step { s with script := .tick p :: l } = step { s with script := .tick q :: l }

/-! ### The step -/

/-- A step runs the decoded command: with `rst` = 0 and ports that read as `i`, the step is `exec i` on the state whose
host has presented this tick; with no command, an idle controller only lets the host go on (40_commands.md section 1,
42_protocol.md section 2). -/
def Obligations.StepRunsTheDecodedCommand : Prop :=
  ∀ s : State, s.ports.rst = false →
    s.presented = { s with script := (hostTick s.busy s.script).2 } ∧
    (∀ i, decode s.ports = .ok i → step s = exec i s.presented) ∧
    (s.fsm = .idle → s.ports.cmdValid = false → step s = .next s.presented)

/-- 60_exceptions.md, opening and section 1: BSWV has no traps, and every tick of every state has a next state. -/
def Obligations.StepNeverStops : Prop := ∀ s : State, ∃ t, step s = .next t

/-- 40_commands.md R65: a command presented while busy leaves exactly what no command leaves, and `cmd_ready` = 0. -/
def Obligations.CommandsWhileBusyAreDropped : Prop :=
  ∀ (s : State) (p : Ports) (l : List HostItem), s.fsm ≠ .idle → p.rst = false →
    s.cmdReady = false ∧
    step { s with script := .tick p :: l } = step { s with script := .tick Ports.quiet :: l }

/-- 40_commands.md section 1: a command takes effect exactly when rst = 0, cmd_valid = 1 and FSM = IDLE; in every
other case the tick is the one in which only `rst` is driven. -/
def Obligations.AcceptanceNeedsIdleValidAndNoReset : Prop :=
  ∀ (s : State) (p : Ports) (l : List HostItem), s.script = .tick p :: l →
    ((p.rst = false ∧ p.cmdValid = true ∧ s.fsm = .idle) →
      ∃ i, decode p = .ok i ∧ step s = exec i { s with script := l }) ∧
    (¬ (p.rst = false ∧ p.cmdValid = true ∧ s.fsm = .idle) →
      step s = step { s with script := .tick { Ports.quiet with rst := p.rst } :: l })

/-! ### The commands -/

/-- 40_commands.md R67: NOP writes nothing, and is like a tick with `cmd_valid` = 0 in every state, while busy too. -/
def Obligations.NopWritesNothing : Prop :=
  (∀ s : State, s.fsm = .idle → exec .nop s = .next s) ∧
  ∀ (s : State) (l : List HostItem),
    step { s with script := .tick (encode .nop) :: l } = step { s with script := .tick Ports.quiet :: l }

/-- 40_commands.md R68: the reserved code writes DONE = 1 and RESULT = ERR_CMD and nothing else, whatever the operand
ports hold; while busy it is dropped; from reset the status word becomes 0x0012. -/
def Obligations.ReservedCodeCompletesWithErrCmd : Prop :=
  (∀ p : Ports, p.cmdValid = true → p.cmdOp = 0b111#3 → decode p = .ok .rsvd) ∧
  (∀ s : State, s.fsm = .idle → exec .rsvd s = .next { s with done := true, result := .errCmd }) ∧
  (∀ s : State, s.fsm ≠ .idle → exec .rsvd s = .next s.controllerTick) ∧
  State.reset.status = 0x0000#16 ∧
  ∀ t, exec .rsvd State.reset = .next t → t.status = 0x0012#16

/-- 41_codec.md R75: ENC on every value and every width, with its corner cases. -/
def Obligations.EncWritesSequenceLengthAndOverflow : Prop :=
  ∀ (s : State) (v : Bus16) (w : Width), s.fsm = .idle →
    ((1 ≤ w.toNat ∧ w.toNat ≤ 16) →
      exec (.enc v w) s = .next { s with
        seq := encodeSeq v w.toNat, len := w, ovf := decide (2 ^ w.toNat ≤ v.toNat), result := .ok, done := true }) ∧
    (¬ (1 ≤ w.toNat ∧ w.toNat ≤ 16) →
      exec (.enc v w) s = .next { s with result := .errWidth, done := true }) ∧
    decide (2 ^ w.toNat ≤ v.toNat) = decide (v >>> w.toNat ≠ 0) ∧
    (w.toNat = 16 → ¬ 2 ^ w.toNat ≤ v.toNat) ∧
    (v = 0 → encodeSeq v w.toNat = 0 ∧ ¬ 2 ^ w.toNat ≤ v.toNat) ∧
    encodeSeq v w.toNat = encodeSeq (BitVec.ofNat 16 (v.toNat % 2 ^ w.toNat)) w.toNat ∧
    (w.toNat = 1 → (encodeSeq v w.toNat).getLsbD 0 = v.getLsbD 0) ∧
    (∀ k, w.toNat ≤ k → (encodeSeq v w.toNat).getLsbD k = false) ∧
    encodeSeq 0x1F#16 2 = 0x3#16 ∧ encodeSeq 0x1#16 2 = 0x2#16

/-- 41_codec.md R76: DEC on every sequence and every width; bits at or above the width are ignored. -/
def Obligations.DecWritesTheValue : Prop :=
  ∀ (s : State) (q : Bus16) (w : Width), s.fsm = .idle →
    ((1 ≤ w.toNat ∧ w.toNat ≤ 16) →
      exec (.dec q w) s = .next { s with val := decodeSeq q w.toNat, result := .ok, done := true } ∧
      (decodeSeq q w.toNat).toNat < 2 ^ w.toNat ∧
      ∀ q' : Bus16, (∀ k, k < w.toNat → q'.getLsbD k = q.getLsbD k) →
        decodeSeq q' w.toNat = decodeSeq q w.toNat) ∧
    (¬ (1 ≤ w.toNat ∧ w.toNat ≤ 16) →
      exec (.dec q w) s = .next { s with result := .errWidth, done := true }) ∧
    decodeSeq 0xFFFE#16 2 = 1#16 ∧ decodeSeq 0x0001#16 16 = 0x8000#16 ∧ decodeSeq 0xB3D5#16 16 = 0xABCD#16

/-- 41_codec.md R77: PACK writes FB[i] <- Elem(r, i) and completes; nothing else changes, whatever FB held; every frame
is the frame of some record. -/
def Obligations.PackWritesTheFrame : Prop :=
  (∀ (s : State) (r : Record), s.fsm = .idle →
    ∃ f : Frame, exec (.pack r) s = .next { s with fb := f, result := .ok, done := true } ∧
      (∀ i, i < 56 → f.getLsbD i = elem r i) ∧ (r = Record.zero → f = 0) ∧
      (r = { Record.zero with main3 := true } → f = 0x80000000000000#56)) ∧
  ∀ (s : State) (f : Frame), s.fsm = .idle →
    ∃ r : Record, exec (.pack r) s = .next { s with fb := f, result := .ok, done := true }

/-- 41_codec.md R78: LDFB writes the operand to FB; of a packed record it leaves what PACK leaves. -/
def Obligations.LdfbWritesTheOperand : Prop :=
  ∀ (s : State), s.fsm = .idle →
    (∀ f : Frame, exec (.ldfb f) s = .next { s with fb := f, result := .ok, done := true }) ∧
    (∀ r : Record, exec (.ldfb (pack r)) s = exec (.pack r) s) ∧
    ∀ i, (0x80000000000001#56).getLsbD i = decide (i = 0 ∨ i = 55)

/-- 41_codec.md R79: UNPK writes Unpack(FB) to the nine REC registers and leaves FB; straight after PACK r it gives
REC = r. -/
def Obligations.UnpkWritesTheRecord : Prop :=
  ∀ s : State, s.fsm = .idle →
    exec .unpk s = .next { s with recReg := unpack s.fb, result := .ok, done := true } ∧
    (∀ (r : Record) (t u : State), exec (.pack r) s = .next t → exec .unpk t = .next u →
      u.recReg = r ∧ u.fb = t.fb) ∧
    unpack 0x80000000000001#56 = { Record.zero with dff1 := 2, main3 := true }

/-- 42_protocol.md section 1: the acceptance tick of RUN, from any idle state; nothing else changes. -/
def Obligations.RunAcceptanceEntersEnable : Prop :=
  ∀ s : State, s.fsm = .idle →
    exec .run s = .next { s with
      done := false, result := .none, failIdx := 0, failExp := false, failObs := false, idx := 0, ecnt := false,
      fsm := .enLo, dclk := false, den := true, drst := false, dsi := false }

/-- 40_commands.md section 1: every command but NOP and RUN completes in its acceptance tick with DONE = 1 and its
code, leaves the controller, the device side and the last failure report alone, and gives OK exactly when it uses no
reserved code and no illegal width. -/
def Obligations.OneTickCommandsComplete : Prop :=
  ∀ (s : State) (i : Instr), s.fsm = .idle → i ≠ .nop → i ≠ .run →
    ∃ t, exec i s = .next t ∧ t.done = true ∧ t.fsm = .idle ∧ t.cmdReady = true ∧
      (t.failIdx, t.failExp, t.failObs) = (s.failIdx, s.failExp, s.failObs) ∧
      (t.idx, t.ecnt) = (s.idx, s.ecnt) ∧
      (t.dclk, t.drst, t.den, t.dsi) = (s.dclk, s.drst, s.den, s.dsi) ∧
      t.device = s.device ∧ t.script = s.script ∧
      t.result = (if i.wellFormed then .ok else if i = .rsvd then .errCmd else .errWidth)

/-- 10_state.md sections 3 and 4: who writes a register, in a tick with `rst` = 0. FB: PACK and LDFB. SEQ, LEN and
OVF: ENC with a legal width. VAL: DEC with a legal width. REC: UNPK. The failure report: the acceptance of RUN, and a
check that fails. -/
def Obligations.RegistersHaveOnlyTheirWriters : Prop :=
  ∀ s t : State, s.ports.rst = false → step s = .next t →
    (t.fb ≠ s.fb → (∃ r, Accepts s (.pack r)) ∨ ∃ f, Accepts s (.ldfb f)) ∧
    ((t.seq, t.len, t.ovf) ≠ (s.seq, s.len, s.ovf) → ∃ v w, Accepts s (.enc v w) ∧ 1 ≤ w.toNat ∧ w.toNat ≤ 16) ∧
    (t.val ≠ s.val → ∃ q w, Accepts s (.dec q w) ∧ 1 ≤ w.toNat ∧ w.toNat ≤ 16) ∧
    (t.recReg ≠ s.recReg → Accepts s .unpk) ∧
    ((t.failIdx, t.failExp, t.failObs) ≠ (s.failIdx, s.failExp, s.failObs) →
      Accepts s .run ∨ (s.fsm = .p1Lo ∧ s.sample = true) ∨ (s.fsm = .p2Lo ∧ s.sample ≠ s.element))

/-- 30_encoding.md section 4 and 60_exceptions.md section 1: the codes of RESULT, and the cause of each new value in a
tick with `rst` = 0. -/
def Obligations.ResultCodesHaveTheirCauses : Prop :=
  (Result.none.code = 0#3 ∧ Result.ok.code = 1#3 ∧ Result.errP1.code = 2#3 ∧ Result.errP2.code = 3#3 ∧
    Result.errCmd.code = 4#3 ∧ Result.errWidth.code = 5#3) ∧
  ∀ s t : State, s.ports.rst = false → step s = .next t → t.result ≠ s.result →
    (t.result = .none → Accepts s .run) ∧
    (t.result = .ok → (s.fsm = .p2Hi ∧ 55 ≤ s.idx.toNat) ∨
      ∃ i, Accepts s i ∧ i.wellFormed = true ∧ i ≠ .nop ∧ i ≠ .run) ∧
    (t.result = .errP1 → s.fsm = .p1Lo ∧ s.sample = true ∧ (t.failIdx, t.failExp, t.failObs) = (s.idx, false, true)) ∧
    (t.result = .errP2 → s.fsm = .p2Lo ∧ s.sample ≠ s.element ∧
      (t.failIdx, t.failExp, t.failObs) = (s.idx, s.element, !s.element)) ∧
    (t.result = .errCmd → Accepts s .rsvd) ∧
    (t.result = .errWidth → ∃ v w, (Accepts s (.enc v w) ∨ Accepts s (.dec v w)) ∧ (w.toNat = 0 ∨ 17 ≤ w.toNat))

/-! ### The codec -/

/-- 41_codec.md R71: Encode emits exactly w bits, MSB first, pads with 0, reads only bits w-1 to 0, and is the source's
loop. -/
def Obligations.EncodeEmitsMsbFirst : Prop :=
  ∀ (v : Bus16) (w : Nat), 1 ≤ w → w ≤ 16 →
    (∀ k, k < w → (encodeSeq v w).getLsbD k = v.getLsbD (w - 1 - k)) ∧
    (∀ k, w ≤ k → (encodeSeq v w).getLsbD k = false) ∧
    elements w (encodeSeq v w) = encodeList v w ∧ (encodeList v w).length = w ∧
    encodeLoop v w = encodeSeq v w ∧
    encodeSeq v w = encodeSeq (BitVec.ofNat 16 (v.toNat % 2 ^ w)) w

/-- 41_codec.md R72: Decode is the weighted sum, its bit w-1-k is element k, it is below 2^w, and elements at or above
w are ignored. -/
def Obligations.DecodeIsTheWeightedSum : Prop :=
  ∀ (q : Bus16) (w : Nat), 1 ≤ w → w ≤ 16 →
    (decodeSeq q w).toNat = ∑ k ∈ Finset.range w, (q.getLsbD k).toNat * 2 ^ (w - 1 - k) ∧
    (∀ k, k < w → (decodeSeq q w).getLsbD (w - 1 - k) = q.getLsbD k) ∧
    (decodeSeq q w).toNat < 2 ^ w ∧
    ∀ q' : Bus16, (∀ k, k < w → q'.getLsbD k = q.getLsbD k) → decodeSeq q' w = decodeSeq q w

/-- 41_codec.md R80: decode after encode is truncation, and the identity on values that fit. -/
def Obligations.DecodeAfterEncodeTruncates : Prop :=
  ∀ (v : Bus16) (w : Nat), 1 ≤ w → w ≤ 16 →
    (decodeSeq (encodeSeq v w) w).toNat = v.toNat % 2 ^ w ∧
    (v.toNat < 2 ^ w → decodeSeq (encodeSeq v w) w = v)

/-- 41_codec.md R81: encode after decode clears the elements at or above w. -/
def Obligations.EncodeAfterDecodeMasks : Prop :=
  ∀ (q : Bus16) (w : Nat), 1 ≤ w → w ≤ 16 → encodeSeq (decodeSeq q w) w = q &&& BitVec.ofNat 16 (2 ^ w - 1)

/-- 41_codec.md R82: Pack and Unpack are mutually inverse bijections. -/
def Obligations.PackAndUnpackAreInverse : Prop :=
  (∀ r : Record, unpack (pack r) = r) ∧ (∀ f : Frame, pack (unpack f) = f) ∧
  Function.Bijective pack ∧ Function.Bijective unpack

/-- 41_codec.md R83 and R85: Pack is the concatenation of nine field encodings, and the lengths. -/
def Obligations.PackConcatenatesFieldEncodings : Prop :=
  (∀ r : Record,
    elements 56 (pack r) =
      encodeList r.dff1 2 ++ encodeList r.dff0 2 ++ encodeList (BitVec.ofBool r.feed1_3) 1 ++
      encodeList r.lut2 16 ++ encodeList r.lut1 16 ++ encodeList r.lut0 16 ++
      encodeList (BitVec.ofBool r.feed0_3) 1 ++ encodeList (BitVec.ofBool r.main2) 1 ++
      encodeList (BitVec.ofBool r.main3) 1 ∧
    (elements 56 (pack r)).length = 56) ∧
  ∀ (v : Bus16) (w : Nat), 1 ≤ w → w ≤ 16 → (encodeList v w).length = w

/-- 41_codec.md R84: changing one field changes only elements of its range; changing one LUT entry changes exactly one
element. -/
def Obligations.FieldsAreLocalInTheFrame : Prop :=
  (∀ (r : Record) (x : BitVec 2) (i : Nat), 2 ≤ i → (pack { r with dff1 := x }).getLsbD i = (pack r).getLsbD i) ∧
  (∀ (r : Record) (x : BitVec 2) (i : Nat), (i < 2 ∨ 4 ≤ i) →
    (pack { r with dff0 := x }).getLsbD i = (pack r).getLsbD i) ∧
  (∀ (r : Record) (x : Bool) (i : Nat), i ≠ 4 → (pack { r with feed1_3 := x }).getLsbD i = (pack r).getLsbD i) ∧
  (∀ (r : Record) (x : Bus16) (i : Nat), (i < 5 ∨ 21 ≤ i) →
    (pack { r with lut2 := x }).getLsbD i = (pack r).getLsbD i) ∧
  (∀ (r : Record) (x : Bus16) (i : Nat), (i < 21 ∨ 37 ≤ i) →
    (pack { r with lut1 := x }).getLsbD i = (pack r).getLsbD i) ∧
  (∀ (r : Record) (x : Bus16) (i : Nat), (i < 37 ∨ 53 ≤ i) →
    (pack { r with lut0 := x }).getLsbD i = (pack r).getLsbD i) ∧
  (∀ (r : Record) (x : Bool) (i : Nat), i ≠ 53 → (pack { r with feed0_3 := x }).getLsbD i = (pack r).getLsbD i) ∧
  (∀ (r : Record) (x : Bool) (i : Nat), i ≠ 54 → (pack { r with main2 := x }).getLsbD i = (pack r).getLsbD i) ∧
  (∀ (r : Record) (x : Bool) (i : Nat), i ≠ 55 → (pack { r with main3 := x }).getLsbD i = (pack r).getLsbD i) ∧
  ∀ (r : Record) (a : Nat), a < 16 →
    pack { r with lut2 := r.lut2 ^^^ BitVec.twoPow 16 a } = pack r ^^^ BitVec.twoPow 56 (20 - a) ∧
    pack { r with lut1 := r.lut1 ^^^ BitVec.twoPow 16 a } = pack r ^^^ BitVec.twoPow 56 (36 - a) ∧
    pack { r with lut0 := r.lut0 ^^^ BitVec.twoPow 16 a } = pack r ^^^ BitVec.twoPow 56 (52 - a)

/-- 30_encoding.md R58: which record bit every frame element holds. -/
def Obligations.FrameElementsHoldTheirRecordBits : Prop :=
  ∀ r : Record,
    (∀ i, i ≤ 1 → (pack r).getLsbD i = r.dff1.getLsbD (1 - i)) ∧
    (∀ i, 2 ≤ i → i ≤ 3 → (pack r).getLsbD i = r.dff0.getLsbD (3 - i)) ∧
    (pack r).getLsbD 4 = r.feed1_3 ∧
    (∀ i, 5 ≤ i → i ≤ 20 → (pack r).getLsbD i = r.lut2.getLsbD (20 - i)) ∧
    (∀ i, 21 ≤ i → i ≤ 36 → (pack r).getLsbD i = r.lut1.getLsbD (36 - i)) ∧
    (∀ i, 37 ≤ i → i ≤ 52 → (pack r).getLsbD i = r.lut0.getLsbD (52 - i)) ∧
    (pack r).getLsbD 53 = r.feed0_3 ∧ (pack r).getLsbD 54 = r.main2 ∧ (pack r).getLsbD 55 = r.main3

/-- 30_encoding.md R59: the word view of a packed record is the MSB-first concatenation of its fields, and the frame is
its bit reversal. -/
def Obligations.WordViewIsTheFieldConcatenation : Prop :=
  (∀ r : Record,
    wordView (pack r) = r.dff1 ++ r.dff0 ++ BitVec.ofBool r.feed1_3 ++ r.lut2 ++ r.lut1 ++ r.lut0 ++
      BitVec.ofBool r.feed0_3 ++ BitVec.ofBool r.main2 ++ BitVec.ofBool r.main3 ∧
    pack r = (wordView (pack r)).reverse) ∧
  wordView (pack { Record.zero with main3 := true }) = 0x00000000000001#56 ∧
  pack { Record.zero with main3 := true } = 0x80000000000000#56

/-- 41_codec.md R74: which frame element every record bit comes from. -/
def Obligations.UnpackReadsEveryRecordBit : Prop :=
  ∀ f : Frame,
    (unpack f).dff1 = BitVec.ofBool (f.getLsbD 0) ++ BitVec.ofBool (f.getLsbD 1) ∧
    (unpack f).dff0 = BitVec.ofBool (f.getLsbD 2) ++ BitVec.ofBool (f.getLsbD 3) ∧
    (unpack f).feed1_3 = f.getLsbD 4 ∧
    (∀ a, a ≤ 15 → (unpack f).lut2.getLsbD a = f.getLsbD (20 - a) ∧
      (unpack f).lut1.getLsbD a = f.getLsbD (36 - a) ∧ (unpack f).lut0.getLsbD a = f.getLsbD (52 - a)) ∧
    (unpack f).feed0_3 = f.getLsbD 53 ∧ (unpack f).main2 = f.getLsbD 54 ∧ (unpack f).main3 = f.getLsbD 55

/-! ### The controller -/

/-- 42_protocol.md R90 to R93: the enable and reset cycles, from every state of the invariant, in a tick with `rst` = 0:
the next state, register by register, the rising edges with what the device samples, and the cleared device. -/
def Obligations.EnableAndResetTransitions : Prop :=
  ∀ s : State, StateInv s → s.ports.rst = false →
    (s.fsm = .enLo → ∃ t, step s = .next t ∧
      t = { s.presented with fsm := .enHi, dclk := true, drst := false, den := true, dsi := false, device := t.device } ∧
      risingEdge s t = true ∧ (s.drst, s.den, s.dsi) = (false, true, false)) ∧
    (s.fsm = .enHi → s.ecnt = false → step s = .next { s.presented with
      ecnt := true, fsm := .enLo, dclk := false, drst := false, den := true, dsi := false }) ∧
    (s.fsm = .enHi → s.ecnt = true → step s = .next { s.presented with
      fsm := .rstLo, dclk := false, drst := true, den := true, dsi := false }) ∧
    (s.fsm = .rstLo → ∃ t, step s = .next t ∧
      t = { s.presented with fsm := .rstHi, dclk := true, drst := true, den := true, dsi := false, device := t.device } ∧
      risingEdge s t = true ∧ s.drst = true ∧
      ∀ q, s.device = .reference q → t.device = .reference (List.replicate q.length false)) ∧
    (s.fsm = .rstHi → ∃ t, step s = .next t ∧
      t = { s.presented with
        idx := 0, fsm := .p1Lo, dclk := false, drst := false, den := true, dsi := s.fb.getLsbD 0 } ∧
      risingEdge s t = false ∧ s.dclk = true)

/-- 42_protocol.md R94: the pass-1 check: Fail(ERR_P1, IDX, 0, so) when 1 is sampled, else P1_HI with a rising edge
that shifts FB[IDX] in. -/
def Obligations.PassOneCheck : Prop :=
  ∀ s : State, StateInv s → s.ports.rst = false → s.fsm = .p1Lo →
    ∃ t, step s = .next t ∧
      (s.sample ≠ false → t = { s.presented with
        result := .errP1, failIdx := s.idx, failExp := false, failObs := s.sample, done := true,
        fsm := .idle, drst := false, den := false, dsi := false, device := t.device }) ∧
      (s.sample = false →
        t = { s.presented with
          fsm := .p1Hi, dclk := true, drst := false, den := true, dsi := s.fb.getLsbD s.idx.toNat,
          device := t.device } ∧
        risingEdge s t = true ∧ s.dsi = s.fb.getLsbD s.idx.toNat ∧
        ∀ q, s.device = .reference q →
          t.device = .reference ((s.fb.getLsbD s.idx.toNat :: q).take q.length))

/-- 42_protocol.md R96: the pass-2 check: Fail(ERR_P2, IDX, FB[IDX], so) when the sample differs from FB[IDX], else
P2_HI. -/
def Obligations.PassTwoCheck : Prop :=
  ∀ s : State, s.ports.rst = false → s.fsm = .p2Lo →
    ∃ t, step s = .next t ∧
      (s.sample ≠ s.fb.getLsbD s.idx.toNat → t = { s.presented with
        result := .errP2, failIdx := s.idx, failExp := s.fb.getLsbD s.idx.toNat, failObs := s.sample, done := true,
        fsm := .idle, drst := false, den := false, dsi := false, device := t.device }) ∧
      (s.sample = s.fb.getLsbD s.idx.toNat → t = { s.presented with
        fsm := .p2Hi, dclk := true, drst := false, den := true, dsi := s.fb.getLsbD s.idx.toNat, device := t.device })

/-- 42_protocol.md R95 and R97: the high half of a bit cycle, with no gap between the passes, and the end of a passing
RUN with DCLK staying 1. -/
def Obligations.PassHighTransitions : Prop :=
  ∀ s : State, StateInv s → s.ports.rst = false →
    (s.fsm = .p1Hi → s.idx.toNat < 55 → step s = .next { s.presented with
      idx := s.idx + 1, fsm := .p1Lo, dclk := false, drst := false, den := true,
      dsi := s.fb.getLsbD (s.idx.toNat + 1) }) ∧
    (s.fsm = .p1Hi → s.idx.toNat = 55 → step s = .next { s.presented with
      idx := 0, fsm := .p2Lo, dclk := false, drst := false, den := true, dsi := s.fb.getLsbD 0 }) ∧
    (s.fsm = .p2Hi → s.idx.toNat < 55 → step s = .next { s.presented with
      idx := s.idx + 1, fsm := .p2Lo, dclk := false, drst := false, den := true,
      dsi := s.fb.getLsbD (s.idx.toNat + 1) }) ∧
    (s.fsm = .p2Hi → s.idx.toNat = 55 → step s = .next { s.presented with
      result := .ok, done := true, fsm := .idle, dclk := true, drst := false, den := false, dsi := false })

/-- 60_exceptions.md section 3: a failing check aborts the RUN in its own tick: the report is in the registers, enable,
reset and serial-in are 0, DCLK stays 0, no edge is issued, the device keeps what it holds, and the block is ready. -/
def Obligations.FailingCheckAbortsPrecisely : Prop :=
  ∀ s : State, StateInv s → s.ports.rst = false →
    (s.fsm = .p1Lo ∧ s.sample = true) ∨ (s.fsm = .p2Lo ∧ s.sample ≠ s.element) →
    ∃ t, step s = .next t ∧
      t.report = ⟨if s.fsm = .p1Lo then .errP1 else .errP2, s.idx,
        if s.fsm = .p1Lo then false else s.element, s.sample⟩ ∧
      t.failObs = !t.failExp ∧ t.done = true ∧ t.fsm = .idle ∧ t.cmdReady = true ∧
      (t.dclk, t.drst, t.den, t.dsi) = (false, false, false, false) ∧ risingEdge s t = false ∧
      (∀ q, s.device = .reference q → t.device = .reference q) ∧
      (t.idx, t.ecnt, t.fb, t.seq, t.len, t.ovf, t.val, t.recReg) =
        (s.idx, s.ecnt, s.fb, s.seq, s.len, s.ovf, s.val, s.recReg)

/-- 42_protocol.md R98: IDLE does nothing on the device side, with or without a command, and only an accepted RUN
leaves it. -/
def Obligations.IdleIsQuietAndLeftOnlyByRun : Prop :=
  ∀ s : State, StateInv s → s.ports.rst = false → s.fsm = .idle →
    ∃ t, step s = .next t ∧ risingEdge s t = false ∧
      (s.drst, s.den, s.dsi) = (false, false, false) ∧
      (Accepts s .run → t.fsm = .enLo) ∧
      (¬ Accepts s .run → t.fsm = .idle ∧ (t.dclk, t.drst, t.den, t.dsi) = (s.dclk, s.drst, s.den, s.dsi))

/-- The state after reset has the invariant, with any reference device attached and any program to present. -/
def Obligations.InvariantHoldsAtReset : Prop :=
  StateInv State.reset ∧ (∀ q, StateInv (State.resetWith q)) ∧ ∀ s, StateInv s → ∀ lines, StateInv (s.withProgram lines)

/-- 10_state.md sections 2 to 5: every tick keeps the invariant of the registers (`StateInv`): the outputs agree with the
state, IDX and FAIL_IDX stay in 0..55, DONE agrees with RESULT, a running RUN has no outcome, a failure report is
consistent, SEQ is padded. -/
def Obligations.StepKeepsTheInvariant : Prop := ∀ s t : State, StateInv s → step s = .next t → StateInv t

/-- 42_protocol.md R99: DCLK rises on four transitions only, with IDX, DRST, DEN and DSI equal on both sides; on every
other boundary it falls or stays. -/
def Obligations.NoInputChangesAtADeviceEdge : Prop :=
  ∀ s t : State, StateInv s → step s = .next t →
    (risingEdge s t = true ↔
      (s.fsm = .enLo ∧ t.fsm = .enHi) ∨ (s.fsm = .rstLo ∧ t.fsm = .rstHi) ∨
      (s.fsm = .p1Lo ∧ t.fsm = .p1Hi) ∨ (s.fsm = .p2Lo ∧ t.fsm = .p2Hi)) ∧
    (risingEdge s t = true → (t.idx, t.drst, t.den, t.dsi) = (s.idx, s.drst, s.den, s.dsi)) ∧
    (s.fsm = .idle → t.fsm = .enLo → t.dclk = false) ∧
    (s.fsm = .enHi ∨ s.fsm = .rstHi ∨ s.fsm = .p1Hi ∨ s.fsm = .p2Hi → t.fsm ≠ .idle → t.dclk = false) ∧
    (s.ports.rst = false → t.fsm = .idle → t.dclk = s.dclk) ∧
    (s.ports.rst = false → t.fsm = .idle → s.fsm = .p1Lo ∨ s.fsm = .p2Lo → t.dclk = false) ∧
    (s.ports.rst = true → t.dclk = false)

/-! ### The device -/

/-- 20_memory.md R42: what a rising edge does to the reference device. -/
def Obligations.DeviceEdgeClearsShiftsOrHolds : Prop :=
  ∀ (rst en si : Bool) (q : List Bool), ∃ q' : List Bool,
    Device.edge rst en si (.reference q) = .reference q' ∧ q'.length = q.length ∧
    (q.length = 0 → q' = q) ∧
    (rst = true → ∀ j, j < q.length → q'[j]? = some false) ∧
    (rst = false → en = true →
      (0 < q.length → q'[0]? = some si) ∧ ∀ j, 1 ≤ j → j < q.length → q'[j]? = q[j - 1]?) ∧
    (rst = false → en = false → q' = q)

/-- 20_memory.md R41: serial-out is the last stage, and a wire from serial-in when there is no stage. -/
def Obligations.SerialOutIsTheLastStage : Prop :=
  ∀ (s : State) (q : List Bool), s.device = .reference q →
    (q.length = 0 → s.sample = s.dsi) ∧ (1 ≤ q.length → some s.sample = q[q.length - 1]?)

/-- 20_memory.md R43: the device moves exactly at a boundary where DCLK goes from 0 to 1, on input values common to both
sides; at every other boundary, a falling edge among them, it keeps its state. -/
def Obligations.DeviceMovesOnlyAtRisingEdges : Prop :=
  ∀ (s t : State) (q : List Bool), StateInv s → s.device = .reference q → step s = .next t →
    (s.dclk = false → t.dclk = true →
      (t.drst, t.den, t.dsi) = (s.drst, s.den, s.dsi) ∧
      t.device = Device.edge s.drst s.den s.dsi (.reference q)) ∧
    (¬ (s.dclk = false ∧ t.dclk = true) → t.device = .reference q)

/-- 20_memory.md section 2 (derived: what serial-out shows): after the reset edge, the sample just before edge e is the
bit shifted in L edges earlier, 0 before that, and the bit itself when L = 0; and the bits of a RUN are FB twice. -/
def Obligations.SerialOutDelaysByTheLength : Prop :=
  (∀ (l : Nat) (bits : List Bool) (e : Nat) (b : Bool), bits[e]? = some b →
    ((Device.reference (List.replicate l false)).edges
        ((bits.take e).map fun x => ⟨false, true, x⟩)).serialOut b =
      (if l = 0 then b else if l ≤ e then bits.getD (e - l) false else false)) ∧
  ∀ (f : Frame) (e : Nat), e < 112 →
    ((runEdges f).drop 3)[e]? = some ⟨false, true, f.getLsbD (if e < 56 then e else e - 56)⟩

/-! ### Whole runs -/

/-- 42_protocol.md R102: composed with a reference device of any length and any contents, and with any host that holds
`rst` = 0, an accepted RUN ends in IDLE with the report Verify(L, FB) and DONE = 1. -/
def Obligations.RunComputesVerify : Prop :=
  ∀ (s : State) (q : List Bool), s.device = .reference q → Accepts s .run → Undisturbed s →
    ∃ n t, Ends s n t ∧ t.report = verify q.length s.fb ∧ t.done = true

/-- 42_protocol.md R103: on a device of length 56 every frame passes. -/
def Obligations.CorrectLengthAlwaysPasses : Prop := ∀ f : Frame, verify 56 f = ⟨.ok, 0, false, false⟩

/-- 42_protocol.md R104: on any other length exactly the all-zero frame passes. -/
def Obligations.WrongLengthPassesOnlyTheZeroFrame : Prop :=
  ∀ (l : Nat) (f : Frame), l ≠ 56 → ((verify l f).result = .ok ↔ f = 0)

/-- 42_protocol.md R105: the frame D with elements 0 and 55 set measures the length. -/
def Obligations.FrameDMeasuresTheLength : Prop :=
  (∀ i, (0x80000000000001#56).getLsbD i = decide (i = 0 ∨ i = 55)) ∧
  (∀ l, l ≤ 55 → verify l 0x80000000000001#56 = ⟨.errP1, BitVec.ofNat 6 l, false, true⟩) ∧
  verify 56 0x80000000000001#56 = ⟨.ok, 0, false, false⟩ ∧
  (∀ l, 57 ≤ l → verify l 0x80000000000001#56 = ⟨.errP2, 0, true, false⟩)

/-- 42_protocol.md R100: the edges the device sees, for a passing RUN and for an abort at each check, 2 ticks apart
with the first at the boundary into tick t+2. -/
def Obligations.RunGivesTheDeviceItsEdges : Prop :=
  ∀ (s : State) (q : List Bool), s.device = .reference q → Accepts s .run → Undisturbed s →
    ∃ n t, Ends s n t ∧
      ((verify q.length s.fb).result = .ok →
        edgesOver n s = runEdges s.fb ∧ (runEdges s.fb).length = 115 ∧
        runEdges s.fb = [⟨false, true, false⟩, ⟨false, true, false⟩, ⟨true, true, false⟩] ++
          (elements 56 s.fb).map (fun b => ⟨false, true, b⟩) ++ (elements 56 s.fb).map (fun b => ⟨false, true, b⟩)) ∧
      ((verify q.length s.fb).result = .errP1 →
        edgesOver n s = (runEdges s.fb).take (3 + (verify q.length s.fb).failIdx.toNat)) ∧
      ((verify q.length s.fb).result = .errP2 →
        edgesOver n s = (runEdges s.fb).take (59 + (verify q.length s.fb).failIdx.toNat)) ∧
      ∀ k u v, k < n → Runs k s u → step u = .next v →
        (risingEdge u v = true ↔ (k + 1) % 2 = 0 ∧ k + 1 < n)

/-- 70_reset_and_hazards.md R136: the timeline of a passing RUN accepted in tick t. -/
def Obligations.PassingRunTimeline : Prop :=
  ∀ (s : State) (q : List Bool), s.device = .reference q → Accepts s .run → Undisturbed s →
    (verify q.length s.fb).result = .ok →
    (∀ k, k = 1 ∨ k = 3 → ∃ u, Runs k s u ∧ u.fsm = .enLo) ∧
    (∀ k, k = 2 ∨ k = 4 → ∃ u, Runs k s u ∧ u.fsm = .enHi) ∧
    (∃ u, Runs 5 s u ∧ u.fsm = .rstLo) ∧ (∃ u, Runs 6 s u ∧ u.fsm = .rstHi) ∧
    (∀ i, i ≤ 55 →
      (∃ u, Runs (7 + 2 * i) s u ∧ u.fsm = .p1Lo ∧ u.idx.toNat = i) ∧
      (∃ u, Runs (8 + 2 * i) s u ∧ u.fsm = .p1Hi ∧ u.idx.toNat = i) ∧
      (∃ u, Runs (119 + 2 * i) s u ∧ u.fsm = .p2Lo ∧ u.idx.toNat = i) ∧
      (∃ u, Runs (120 + 2 * i) s u ∧ u.fsm = .p2Hi ∧ u.idx.toNat = i)) ∧
    (∃ t, Ends s 231 t ∧ t.done = true ∧ t.result = .ok ∧ t.cmdReady = true) ∧
    (edgesOver 231 s).length = 115 ∧
    ∀ k u v, k < 231 → Runs k s u → step u = .next v → (risingEdge u v = true ↔ 2 ∣ (k + 1) ∧ k + 1 ≤ 230)

/-- 70_reset_and_hazards.md R137: when and after how many edges an aborted RUN ends. -/
def Obligations.AbortedRunTimeline : Prop :=
  ∀ (s : State) (q : List Bool) (i : Nat), s.device = .reference q → Accepts s .run → Undisturbed s →
    (verify q.length s.fb).failIdx.toNat = i →
    ((verify q.length s.fb).result = .errP1 →
      (∃ u, Runs (7 + 2 * i) s u ∧ u.fsm = .p1Lo ∧ u.idx.toNat = i) ∧
      (∃ t, Ends s (8 + 2 * i) t) ∧ (edgesOver (8 + 2 * i) s).length = 3 + i) ∧
    ((verify q.length s.fb).result = .errP2 →
      (∃ u, Runs (119 + 2 * i) s u ∧ u.fsm = .p2Lo ∧ u.idx.toNat = i) ∧
      (∃ t, Ends s (120 + 2 * i) t) ∧ (edgesOver (120 + 2 * i) s).length = 59 + i)

/-- 70_reset_and_hazards.md R139: whatever drives `dut_so`, every accepted command is back in IDLE within 231 ticks. -/
def Obligations.EveryCommandEndsWithin231Ticks : Prop :=
  ∀ (s : State) (i : Instr), Accepts s i → Undisturbed s → ∃ n t, Ends s n t ∧ n ≤ 231

/-- 70_reset_and_hazards.md R140: the end of a RUN, whatever the device, and what a device of length 56 then holds. -/
def Obligations.RunEndStateAndLoadedDevice : Prop :=
  ∀ s : State, Accepts s .run → Undisturbed s →
    (∃ n t, Ends s n t ∧ t.done = true ∧ (t.result = .ok ∨ t.result = .errP1 ∨ t.result = .errP2) ∧ t.den = false) ∧
    ∀ q, s.device = .reference q → q.length = 56 →
      ∃ n t q', Ends s n t ∧ t.result = .ok ∧ t.device = .reference q' ∧ q'.length = 56 ∧
        (∀ j, j ≤ 55 → q'[j]? = some (s.fb.getLsbD (55 - j))) ∧ t.sample = s.fb.getLsbD 0

/-- 20_memory.md section 3 and 42_protocol.md section 3: what the host presents during a RUN, `rst` apart, changes
nothing: from states that differ only there, the RUN ends at the same tick in the same registers and device. -/
def Obligations.HostCannotDisturbARun : Prop :=
  ∀ (s s' : State), s' = { s with script := s'.script } → Accepts s .run → Accepts s' .run →
    Undisturbed s → Undisturbed s' →
    ∃ n t t', Ends s n t ∧ Ends s' n t' ∧ t' = { t with script := t'.script }

/-! ### Reset, status and the host -/

/-- 70_reset_and_hazards.md R124 and R132: a tick with `rst` = 1, in any state and whatever is presented: every register
takes its reset value, the device keeps its state, and no edge is issued. -/
def Obligations.BlockResetGivesTheResetState : Prop :=
  ∀ s : State, s.ports.rst = true →
    ∃ t, step s = .next t ∧
      t.fsm = .idle ∧ t.idx = 0 ∧ t.ecnt = false ∧ t.fb = 0 ∧ t.seq = 0 ∧ t.len = 0 ∧ t.ovf = false ∧ t.val = 0 ∧
      t.recReg = Record.zero ∧ t.done = false ∧ t.failIdx = 0 ∧ t.failExp = false ∧ t.failObs = false ∧
      t.result = .none ∧ t.dclk = false ∧ t.drst = false ∧ t.den = false ∧ t.dsi = false ∧
      t.device = s.device ∧ t.script = (hostTick s.busy s.script).2 ∧ risingEdge s t = false ∧
      t.status = 0x0000#16 ∧ t.cmdReady = true

/-- 30_encoding.md R61: the layout of the status word, its value after reset and after a passing RUN. -/
def Obligations.StatusWordLayout : Prop :=
  (∀ s : State,
    s.status.extractLsb' 0 1 = BitVec.ofBool (decide (s.fsm ≠ .idle)) ∧
    s.status.extractLsb' 1 1 = BitVec.ofBool s.done ∧
    s.status.extractLsb' 2 3 = s.result.code ∧
    s.status.extractLsb' 5 1 = BitVec.ofBool s.ovf ∧
    s.status.extractLsb' 6 6 = s.failIdx ∧
    s.status.extractLsb' 12 1 = BitVec.ofBool s.failExp ∧
    s.status.extractLsb' 13 1 = BitVec.ofBool s.failObs ∧
    s.status.extractLsb' 14 2 = 0#2) ∧
  State.reset.status = 0x0000#16 ∧
  ∀ s t : State, StateInv s → s.ports.rst = false → s.fsm = .p2Hi → s.idx.toNat = 55 → step s = .next t →
    t.status = if t.ovf then 0x0026#16 else 0x0006#16

/-- 40_commands.md section 3 (pseudo-instructions): what they stand for, how long WAIT lasts, and that a line straight
after RUN is dropped. That an IDLE or WAIT tick also drives `rst` = 0, and every operand port 0 (`Ports.quiet`), is the
model's choice (log 3, DESIGN CHOICE): the rule says only `cmd_valid` = 0. -/
def Obligations.PseudoInstructionsExpand : Prop :=
  (∀ n, programItems [.idle n] = List.replicate n (.tick Ports.quiet)) ∧
  Ports.quiet.cmdValid = false ∧
  (∀ r, programItems [.runRec r] = programItems [.cmd (.pack r), .cmd .run, .wait]) ∧
  (∀ f, programItems [.runRaw f] = programItems [.cmd (.ldfb f), .cmd .run, .wait]) ∧
  (∀ (s : State) (l : List HostItem), s.script = .wait :: l →
    (s.busy = true → s.ports.cmdValid = false ∧ s.ports.rst = false ∧ s.presented.script = s.script) ∧
    (s.busy = false → s.ports = State.ports { s with script := l } ∧
      s.presented.script = (State.presented { s with script := l }).script)) ∧
  ∀ (s : State) (i : Instr) (l : List HostLine) (m : List HostItem), s.fsm = .idle →
    s.script = programItems (.cmd .run :: .cmd i :: l) → m = programItems (.cmd .run :: .idle 1 :: l) →
    ∀ t, Runs 2 s t ↔ Runs 2 { s with script := m } t

/-- 70_reset_and_hazards.md R138: with `rst` = 0, `dut_clk` changes at every boundary inside a RUN, starts low, and
keeps its level outside a RUN; its period is two ticks. -/
def Obligations.DeviceClockIsASquareWave : Prop :=
  (∀ s t : State, StateInv s → s.ports.rst = false → step s = .next t →
    (s.fsm = .idle → t.fsm ≠ .idle → t.dclk = false) ∧
    (s.fsm ≠ .idle → t.fsm ≠ .idle → t.dclk = !s.dclk) ∧
    (s.fsm = .idle → t.fsm = .idle → t.dclk = s.dclk)) ∧
  Config.dutClkPeriod = 2 * Config.tUnit

/-- 10_state.md section 6, the port list and the code table of FSM: every output is a register or the fixed wiring over
registers, `dbg_state` is the code of each state, and two states with equal registers drive equal outputs whatever the
inputs and the device are. -/
def Obligations.OutputsDependOnRegistersOnly : Prop :=
  ∀ s : State,
    (∀ (d : Device) (l : List HostItem), State.outputs { s with device := d, script := l } = s.outputs) ∧
    (s.outputs.cmdReady = true ↔ s.fsm = .idle) ∧
    s.outputs.status = s.status ∧ s.outputs.status.getLsbD 0 = !s.outputs.cmdReady ∧
    (s.fsm = .idle → s.outputs.dbgState = 0x0#4) ∧ (s.fsm = .enLo → s.outputs.dbgState = 0x1#4) ∧
    (s.fsm = .enHi → s.outputs.dbgState = 0x2#4) ∧ (s.fsm = .rstLo → s.outputs.dbgState = 0x3#4) ∧
    (s.fsm = .rstHi → s.outputs.dbgState = 0x4#4) ∧ (s.fsm = .p1Lo → s.outputs.dbgState = 0x5#4) ∧
    (s.fsm = .p1Hi → s.outputs.dbgState = 0x6#4) ∧ (s.fsm = .p2Lo → s.outputs.dbgState = 0x7#4) ∧
    (s.fsm = .p2Hi → s.outputs.dbgState = 0x8#4) ∧ s.outputs.dbgState.toNat ≤ 8 ∧
    (s.outputs.dbgState = 0#4 ↔ s.fsm = .idle) ∧
    (s.outputs.resSeq, s.outputs.resLen, s.outputs.resVal, s.outputs.fbOut, s.outputs.recOut, s.outputs.dbgIdx) =
      (s.seq, s.len, s.val, s.fb, s.recReg, s.idx) ∧
    (s.outputs.dutClk, s.outputs.dutRst, s.outputs.dutEn, s.outputs.dutSi) = (s.dclk, s.drst, s.den, s.dsi)

/-- The MODEL's choice, log 1 (DESIGN CHOICE): where the spec does not determine `dut_so`, sample n reads the free value
`Config.freeSample n`, a P1_LO or P2_LO tick with `rst` = 0 takes its sample and moves on to draw n+1, and every other
tick, one with `rst` = 1 among them, leaves the draw as it is. So no two checks of a run share a draw
(70_reset_and_hazards.md section 2; 93_implementation_defined.md U3: any value for each sample). Nothing rests on a
value of the free constant. -/
def Obligations.FreeSamplesAreNewAtEveryCheck : Prop :=
  ∀ (s : State) (n : Nat), s.device = .unspecified n →
    s.sample = Config.freeSample n ∧
    ∃ t, step s = .next t ∧
      (s.ports.rst = false → s.fsm = .p1Lo ∨ s.fsm = .p2Lo → t.device = .unspecified (n + 1)) ∧
      (¬ (s.ports.rst = false ∧ (s.fsm = .p1Lo ∨ s.fsm = .p2Lo)) → t.device = .unspecified n)
end

