-- ==== Sys2Proof/Laws/Operands.lean ====
section
/-! SUPPORT. What the codec's functions answer, bit by bit: one lemma per function, cited instead of unfolding it. -/

namespace Sys2Proof.Machine

@[simp] theorem getLsbD_bitsOf (n : Nat) (f : Nat → Bool) (i : Nat) :
    (bitsOf n f).getLsbD i = (decide (i < n) && f i) := by
  induction n with
  | zero => simp [bitsOf]
  | succ n ih =>
    rw [bitsOf, BitVec.getLsbD_cons]
    by_cases h : i = n
    · simp [h]
    · simp only [if_neg h, ih]
      by_cases h2 : i < n
      · simp [h2, Nat.lt_succ_of_lt h2]
      · have h3 : ¬ i < n + 1 := by omega
        simp [h2, h3]

/-- A vector is `bitsOf` of its own bits. -/
theorem bitsOf_getLsbD {n : Nat} (x : BitVec n) : bitsOf n x.getLsbD = x := by
  apply BitVec.eq_of_getLsbD_eq
  intro i hi
  rw [getLsbD_bitsOf, decide_eq_true hi, Bool.true_and]

/-- Two vectors given by bits are equal when the bits below the width are. -/
theorem bitsOf_congr {n : Nat} {f g : Nat → Bool} (h : ∀ i, i < n → f i = g i) : bitsOf n f = bitsOf n g := by
  apply BitVec.eq_of_getLsbD_eq
  intro i hi
  rw [getLsbD_bitsOf, getLsbD_bitsOf, h i hi]

@[simp] theorem getElem_bitsOf (n : Nat) (f : Nat → Bool) (i : Nat) (h : i < n) : (bitsOf n f)[i] = f i := by
  rw [← BitVec.getLsbD_eq_getElem, getLsbD_bitsOf, decide_eq_true h, Bool.true_and]

theorem getLsbD_encodeSeq (v : Bus16) (w k : Nat) :
    (encodeSeq v w).getLsbD k = (decide (k < 16) && (decide (k < w) && v.getLsbD (w - 1 - k))) := by
  simp [encodeSeq]

theorem getLsbD_pack (r : Record) (i : Nat) : (pack r).getLsbD i = (decide (i < 56) && elem r i) := by
  simp [pack]

@[simp] theorem getElem_encodeSeq (v : Bus16) (w k : Nat) (h : k < 16) :
    (encodeSeq v w)[k] = (decide (k < w) && v.getLsbD (w - 1 - k)) := getElem_bitsOf 16 _ k h

@[simp] theorem getElem_pack (r : Record) (i : Nat) (h : i < 56) : (pack r)[i] = elem r i := getElem_bitsOf 56 _ i h

theorem getLsbD_wordView (f : Frame) (j : Nat) :
    (wordView f).getLsbD j = (decide (j < 56) && f.getLsbD (55 - j)) := by
  simp [wordView]

@[simp] theorem getElem_wordView (f : Frame) (j : Nat) (h : j < 56) : (wordView f)[j] = f.getLsbD (55 - j) :=
  getElem_bitsOf 56 _ j h

@[simp] theorem length_elements {m : Nat} (n : Nat) (x : BitVec m) : (elements n x).length = n := by simp [elements]

@[simp] theorem length_encodeList {n : Nat} (v : BitVec n) (w : Nat) : (encodeList v w).length = w := by
  simp [encodeList]

/-- The legal widths are 1 to 16 (30_encoding.md R53). -/
theorem widthLegal_iff (w : Width) : Width.legal w = true ↔ 1 ≤ w.toNat ∧ w.toNat ≤ 16 := by simp [Width.legal]

/-- OVF says that a bit at or above the width is set, which is that the value does not fit. -/
theorem encodeOverflow_eq (v : Bus16) (w : Nat) : encodeOverflow v w = decide (2 ^ w ≤ v.toNat) := by
  rw [encodeOverflow, decide_eq_decide, ne_eq, ← BitVec.toNat_inj]
  simp [BitVec.toNat_ushiftRight, Nat.shiftRight_eq_div_pow, Nat.div_eq_zero_iff]

end Sys2Proof.Machine
end

