-- ==== Sys2Proof/Laws/State.lean ====
section
/-! SUPPORT. One lemma per field per update of State, true by rfl. -/

namespace Sys2Proof.Machine

variable (s : State) (x : Fsm) (c : Result) (i : Idx) (e o : Bool)

/-! ### `enter X` (42_protocol.md R89) -/

@[simp] theorem State.enter_fsm : (s.enter x).fsm = x := rfl
@[simp] theorem State.enter_idx : (s.enter x).idx = s.idx := rfl
@[simp] theorem State.enter_ecnt : (s.enter x).ecnt = s.ecnt := rfl
@[simp] theorem State.enter_fb : (s.enter x).fb = s.fb := rfl
@[simp] theorem State.enter_seq : (s.enter x).seq = s.seq := rfl
@[simp] theorem State.enter_len : (s.enter x).len = s.len := rfl
@[simp] theorem State.enter_ovf : (s.enter x).ovf = s.ovf := rfl
@[simp] theorem State.enter_val : (s.enter x).val = s.val := rfl
@[simp] theorem State.enter_recReg : (s.enter x).recReg = s.recReg := rfl
@[simp] theorem State.enter_done : (s.enter x).done = s.done := rfl
@[simp] theorem State.enter_result : (s.enter x).result = s.result := rfl
@[simp] theorem State.enter_failIdx : (s.enter x).failIdx = s.failIdx := rfl
@[simp] theorem State.enter_failExp : (s.enter x).failExp = s.failExp := rfl
@[simp] theorem State.enter_failObs : (s.enter x).failObs = s.failObs := rfl
@[simp] theorem State.enter_dclk : (s.enter x).dclk = x.dclkRow s.dclk := rfl
@[simp] theorem State.enter_drst : (s.enter x).drst = x.drstRow := rfl
@[simp] theorem State.enter_den : (s.enter x).den = x.denRow := rfl
@[simp] theorem State.enter_dsi : (s.enter x).dsi = x.dsiRow s.element := rfl
@[simp] theorem State.enter_device : (s.enter x).device = s.device := rfl
@[simp] theorem State.enter_script : (s.enter x).script = s.script := rfl

/-! ### Fail (60_exceptions.md R114) -/

@[simp] theorem State.raiseFail_fsm : (s.raiseFail c i e o).fsm = .idle := rfl
@[simp] theorem State.raiseFail_idx : (s.raiseFail c i e o).idx = s.idx := rfl
@[simp] theorem State.raiseFail_ecnt : (s.raiseFail c i e o).ecnt = s.ecnt := rfl
@[simp] theorem State.raiseFail_fb : (s.raiseFail c i e o).fb = s.fb := rfl
@[simp] theorem State.raiseFail_seq : (s.raiseFail c i e o).seq = s.seq := rfl
@[simp] theorem State.raiseFail_len : (s.raiseFail c i e o).len = s.len := rfl
@[simp] theorem State.raiseFail_ovf : (s.raiseFail c i e o).ovf = s.ovf := rfl
@[simp] theorem State.raiseFail_val : (s.raiseFail c i e o).val = s.val := rfl
@[simp] theorem State.raiseFail_recReg : (s.raiseFail c i e o).recReg = s.recReg := rfl
@[simp] theorem State.raiseFail_done : (s.raiseFail c i e o).done = true := rfl
@[simp] theorem State.raiseFail_result : (s.raiseFail c i e o).result = c := rfl
@[simp] theorem State.raiseFail_failIdx : (s.raiseFail c i e o).failIdx = i := rfl
@[simp] theorem State.raiseFail_failExp : (s.raiseFail c i e o).failExp = e := rfl
@[simp] theorem State.raiseFail_failObs : (s.raiseFail c i e o).failObs = o := rfl
@[simp] theorem State.raiseFail_dclk : (s.raiseFail c i e o).dclk = s.dclk := rfl
@[simp] theorem State.raiseFail_drst : (s.raiseFail c i e o).drst = false := rfl
@[simp] theorem State.raiseFail_den : (s.raiseFail c i e o).den = false := rfl
@[simp] theorem State.raiseFail_dsi : (s.raiseFail c i e o).dsi = false := rfl
@[simp] theorem State.raiseFail_device : (s.raiseFail c i e o).device = s.device := rfl
@[simp] theorem State.raiseFail_script : (s.raiseFail c i e o).script = s.script := rfl

/-! ### the block reset (70_reset_and_hazards.md R124) -/

@[simp] theorem State.blockReset_fsm : s.blockReset.fsm = State.reset.fsm := rfl
@[simp] theorem State.blockReset_idx : s.blockReset.idx = State.reset.idx := rfl
@[simp] theorem State.blockReset_ecnt : s.blockReset.ecnt = State.reset.ecnt := rfl
@[simp] theorem State.blockReset_fb : s.blockReset.fb = State.reset.fb := rfl
@[simp] theorem State.blockReset_seq : s.blockReset.seq = State.reset.seq := rfl
@[simp] theorem State.blockReset_len : s.blockReset.len = State.reset.len := rfl
@[simp] theorem State.blockReset_ovf : s.blockReset.ovf = State.reset.ovf := rfl
@[simp] theorem State.blockReset_val : s.blockReset.val = State.reset.val := rfl
@[simp] theorem State.blockReset_recReg : s.blockReset.recReg = State.reset.recReg := rfl
@[simp] theorem State.blockReset_done : s.blockReset.done = State.reset.done := rfl
@[simp] theorem State.blockReset_result : s.blockReset.result = State.reset.result := rfl
@[simp] theorem State.blockReset_failIdx : s.blockReset.failIdx = State.reset.failIdx := rfl
@[simp] theorem State.blockReset_failExp : s.blockReset.failExp = State.reset.failExp := rfl
@[simp] theorem State.blockReset_failObs : s.blockReset.failObs = State.reset.failObs := rfl
@[simp] theorem State.blockReset_dclk : s.blockReset.dclk = State.reset.dclk := rfl
@[simp] theorem State.blockReset_drst : s.blockReset.drst = State.reset.drst := rfl
@[simp] theorem State.blockReset_den : s.blockReset.den = State.reset.den := rfl
@[simp] theorem State.blockReset_dsi : s.blockReset.dsi = State.reset.dsi := rfl
@[simp] theorem State.blockReset_device : s.blockReset.device = s.device := rfl
@[simp] theorem State.blockReset_script : s.blockReset.script = s.script := rfl

/-! ### acceptance (40_commands.md R64) -/

@[simp] theorem State.accept_fsm : s.accept.fsm = s.fsm := rfl
@[simp] theorem State.accept_idx : s.accept.idx = s.idx := rfl
@[simp] theorem State.accept_ecnt : s.accept.ecnt = s.ecnt := rfl
@[simp] theorem State.accept_fb : s.accept.fb = s.fb := rfl
@[simp] theorem State.accept_seq : s.accept.seq = s.seq := rfl
@[simp] theorem State.accept_len : s.accept.len = s.len := rfl
@[simp] theorem State.accept_ovf : s.accept.ovf = s.ovf := rfl
@[simp] theorem State.accept_val : s.accept.val = s.val := rfl
@[simp] theorem State.accept_recReg : s.accept.recReg = s.recReg := rfl
@[simp] theorem State.accept_done : s.accept.done = false := rfl
@[simp] theorem State.accept_result : s.accept.result = s.result := rfl
@[simp] theorem State.accept_failIdx : s.accept.failIdx = s.failIdx := rfl
@[simp] theorem State.accept_failExp : s.accept.failExp = s.failExp := rfl
@[simp] theorem State.accept_failObs : s.accept.failObs = s.failObs := rfl
@[simp] theorem State.accept_dclk : s.accept.dclk = s.dclk := rfl
@[simp] theorem State.accept_drst : s.accept.drst = s.drst := rfl
@[simp] theorem State.accept_den : s.accept.den = s.den := rfl
@[simp] theorem State.accept_dsi : s.accept.dsi = s.dsi := rfl
@[simp] theorem State.accept_device : s.accept.device = s.device := rfl
@[simp] theorem State.accept_script : s.accept.script = s.script := rfl

/-! ### completion (40_commands.md R66) -/

@[simp] theorem State.complete_fsm : (s.complete c).fsm = s.fsm := rfl
@[simp] theorem State.complete_idx : (s.complete c).idx = s.idx := rfl
@[simp] theorem State.complete_ecnt : (s.complete c).ecnt = s.ecnt := rfl
@[simp] theorem State.complete_fb : (s.complete c).fb = s.fb := rfl
@[simp] theorem State.complete_seq : (s.complete c).seq = s.seq := rfl
@[simp] theorem State.complete_len : (s.complete c).len = s.len := rfl
@[simp] theorem State.complete_ovf : (s.complete c).ovf = s.ovf := rfl
@[simp] theorem State.complete_val : (s.complete c).val = s.val := rfl
@[simp] theorem State.complete_recReg : (s.complete c).recReg = s.recReg := rfl
@[simp] theorem State.complete_done : (s.complete c).done = true := rfl
@[simp] theorem State.complete_result : (s.complete c).result = c := rfl
@[simp] theorem State.complete_failIdx : (s.complete c).failIdx = s.failIdx := rfl
@[simp] theorem State.complete_failExp : (s.complete c).failExp = s.failExp := rfl
@[simp] theorem State.complete_failObs : (s.complete c).failObs = s.failObs := rfl
@[simp] theorem State.complete_dclk : (s.complete c).dclk = s.dclk := rfl
@[simp] theorem State.complete_drst : (s.complete c).drst = s.drst := rfl
@[simp] theorem State.complete_den : (s.complete c).den = s.den := rfl
@[simp] theorem State.complete_dsi : (s.complete c).dsi = s.dsi := rfl
@[simp] theorem State.complete_device : (s.complete c).device = s.device := rfl
@[simp] theorem State.complete_script : (s.complete c).script = s.script := rfl

/-! ### the host's side of a tick (40_commands.md R69) -/

@[simp] theorem State.presented_fsm : s.presented.fsm = s.fsm := rfl
@[simp] theorem State.presented_idx : s.presented.idx = s.idx := rfl
@[simp] theorem State.presented_ecnt : s.presented.ecnt = s.ecnt := rfl
@[simp] theorem State.presented_fb : s.presented.fb = s.fb := rfl
@[simp] theorem State.presented_seq : s.presented.seq = s.seq := rfl
@[simp] theorem State.presented_len : s.presented.len = s.len := rfl
@[simp] theorem State.presented_ovf : s.presented.ovf = s.ovf := rfl
@[simp] theorem State.presented_val : s.presented.val = s.val := rfl
@[simp] theorem State.presented_recReg : s.presented.recReg = s.recReg := rfl
@[simp] theorem State.presented_done : s.presented.done = s.done := rfl
@[simp] theorem State.presented_result : s.presented.result = s.result := rfl
@[simp] theorem State.presented_failIdx : s.presented.failIdx = s.failIdx := rfl
@[simp] theorem State.presented_failExp : s.presented.failExp = s.failExp := rfl
@[simp] theorem State.presented_failObs : s.presented.failObs = s.failObs := rfl
@[simp] theorem State.presented_dclk : s.presented.dclk = s.dclk := rfl
@[simp] theorem State.presented_drst : s.presented.drst = s.drst := rfl
@[simp] theorem State.presented_den : s.presented.den = s.den := rfl
@[simp] theorem State.presented_dsi : s.presented.dsi = s.dsi := rfl
@[simp] theorem State.presented_device : s.presented.device = s.device := rfl
@[simp] theorem State.presented_script : s.presented.script = (hostTick s.busy s.script).2 := rfl

/-! ### a tick of the controller (42_protocol.md section 2) -/

@[simp] theorem State.controllerTick_fsm : s.controllerTick.fsm = s.transition.fsm := rfl
@[simp] theorem State.controllerTick_idx : s.controllerTick.idx = s.transition.idx := rfl
@[simp] theorem State.controllerTick_ecnt : s.controllerTick.ecnt = s.transition.ecnt := rfl
@[simp] theorem State.controllerTick_fb : s.controllerTick.fb = s.transition.fb := rfl
@[simp] theorem State.controllerTick_seq : s.controllerTick.seq = s.transition.seq := rfl
@[simp] theorem State.controllerTick_len : s.controllerTick.len = s.transition.len := rfl
@[simp] theorem State.controllerTick_ovf : s.controllerTick.ovf = s.transition.ovf := rfl
@[simp] theorem State.controllerTick_val : s.controllerTick.val = s.transition.val := rfl
@[simp] theorem State.controllerTick_recReg : s.controllerTick.recReg = s.transition.recReg := rfl
@[simp] theorem State.controllerTick_done : s.controllerTick.done = s.transition.done := rfl
@[simp] theorem State.controllerTick_result : s.controllerTick.result = s.transition.result := rfl
@[simp] theorem State.controllerTick_failIdx : s.controllerTick.failIdx = s.transition.failIdx := rfl
@[simp] theorem State.controllerTick_failExp : s.controllerTick.failExp = s.transition.failExp := rfl
@[simp] theorem State.controllerTick_failObs : s.controllerTick.failObs = s.transition.failObs := rfl
@[simp] theorem State.controllerTick_dclk : s.controllerTick.dclk = s.transition.dclk := rfl
@[simp] theorem State.controllerTick_drst : s.controllerTick.drst = s.transition.drst := rfl
@[simp] theorem State.controllerTick_den : s.controllerTick.den = s.transition.den := rfl
@[simp] theorem State.controllerTick_dsi : s.controllerTick.dsi = s.transition.dsi := rfl
@[simp] theorem State.controllerTick_device : s.controllerTick.device = deviceAfter s s.transition := rfl
@[simp] theorem State.controllerTick_script : s.controllerTick.script = s.transition.script := rfl

/-! ### The rows of the controller's states (42_protocol.md R89) -/

/-- The column DCLK. -/
@[simp] theorem Fsm.dclkRow_rows (hold : Bool) :
    Fsm.dclkRow hold .idle = hold ∧ Fsm.dclkRow hold .enLo = false ∧ Fsm.dclkRow hold .enHi = true ∧
    Fsm.dclkRow hold .rstLo = false ∧ Fsm.dclkRow hold .rstHi = true ∧ Fsm.dclkRow hold .p1Lo = false ∧
    Fsm.dclkRow hold .p1Hi = true ∧ Fsm.dclkRow hold .p2Lo = false ∧ Fsm.dclkRow hold .p2Hi = true := by
  simp [Fsm.dclkRow]

/-- The column DRST. -/
@[simp] theorem Fsm.drstRow_rows :
    Fsm.drstRow .idle = false ∧ Fsm.drstRow .enLo = false ∧ Fsm.drstRow .enHi = false ∧
    Fsm.drstRow .rstLo = true ∧ Fsm.drstRow .rstHi = true ∧ Fsm.drstRow .p1Lo = false ∧
    Fsm.drstRow .p1Hi = false ∧ Fsm.drstRow .p2Lo = false ∧ Fsm.drstRow .p2Hi = false := by
  simp [Fsm.drstRow]

/-- The column DEN. -/
@[simp] theorem Fsm.denRow_rows :
    Fsm.denRow .idle = false ∧ Fsm.denRow .enLo = true ∧ Fsm.denRow .enHi = true ∧
    Fsm.denRow .rstLo = true ∧ Fsm.denRow .rstHi = true ∧ Fsm.denRow .p1Lo = true ∧
    Fsm.denRow .p1Hi = true ∧ Fsm.denRow .p2Lo = true ∧ Fsm.denRow .p2Hi = true := by
  simp [Fsm.denRow]

/-- The column DSI. -/
@[simp] theorem Fsm.dsiRow_rows (b : Bool) :
    Fsm.dsiRow b .idle = false ∧ Fsm.dsiRow b .enLo = false ∧ Fsm.dsiRow b .enHi = false ∧
    Fsm.dsiRow b .rstLo = false ∧ Fsm.dsiRow b .rstHi = false ∧ Fsm.dsiRow b .p1Lo = b ∧
    Fsm.dsiRow b .p1Hi = b ∧ Fsm.dsiRow b .p2Lo = b ∧ Fsm.dsiRow b .p2Hi = b := by
  simp [Fsm.dsiRow]

/-- The states that sample (20_memory.md R39). -/
@[simp] theorem Fsm.samples_rows :
    Fsm.samples .idle = false ∧ Fsm.samples .enLo = false ∧ Fsm.samples .enHi = false ∧
    Fsm.samples .rstLo = false ∧ Fsm.samples .rstHi = false ∧ Fsm.samples .p1Lo = true ∧
    Fsm.samples .p1Hi = false ∧ Fsm.samples .p2Lo = true ∧ Fsm.samples .p2Hi = false := by
  simp [Fsm.samples]

/-- The states in a pass. -/
@[simp] theorem Fsm.inPass_rows :
    Fsm.inPass .idle = false ∧ Fsm.inPass .enLo = false ∧ Fsm.inPass .enHi = false ∧
    Fsm.inPass .rstLo = false ∧ Fsm.inPass .rstHi = false ∧ Fsm.inPass .p1Lo = true ∧
    Fsm.inPass .p1Hi = true ∧ Fsm.inPass .p2Lo = true ∧ Fsm.inPass .p2Hi = true := by
  simp [Fsm.inPass]

/-- The states past the enable cycles. -/
@[simp] theorem Fsm.pastEnable_rows :
    Fsm.pastEnable .idle = false ∧ Fsm.pastEnable .enLo = false ∧ Fsm.pastEnable .enHi = false ∧
    Fsm.pastEnable .rstLo = true ∧ Fsm.pastEnable .rstHi = true ∧ Fsm.pastEnable .p1Lo = true ∧
    Fsm.pastEnable .p1Hi = true ∧ Fsm.pastEnable .p2Lo = true ∧ Fsm.pastEnable .p2Hi = true := by
  simp [Fsm.pastEnable]

/-! ### What a tick reads, after the host's side of it -/

@[simp] theorem State.sample_presented : s.presented.sample = s.sample := rfl

@[simp] theorem State.element_presented : s.presented.element = s.element := rfl

@[simp] theorem State.busy_presented : s.presented.busy = s.busy := rfl

end Sys2Proof.Machine
end

