-- ==== Sys2Proof/Laws/Ops.lean ====
section
/-! SUPPORT. What the shared operations can do: the device, `present`, the host's side of a tick, and one inversion
lemma for the step. -/

namespace Sys2Proof.Machine

/-! ### The device -/

@[simp] theorem Device.serialOut_wire (si : Bool) : Device.serialOut (.reference []) si = si := rfl

@[simp] theorem Device.serialOut_last (q : List Bool) (b si : Bool) :
    Device.serialOut (.reference (q ++ [b])) si = b := by
  cases q <;> simp [Device.serialOut]

@[simp] theorem Device.serialOut_free (n : Nat) (si : Bool) :
    Device.serialOut (.unspecified n) si = Config.freeSample n := rfl

@[simp] theorem Device.sampled_reference (q : List Bool) : Device.sampled (.reference q) = .reference q := rfl

@[simp] theorem Device.edge_reset (en si : Bool) (q : List Bool) :
    Device.edge true en si (.reference q) = .reference (List.replicate q.length false) := by
  simp [Device.edge, List.map_const']

@[simp] theorem Device.edge_shift (si : Bool) (q : List Bool) :
    Device.edge false true si (.reference q) = .reference ((si :: q).take q.length) := rfl

@[simp] theorem Device.edge_hold (si : Bool) (q : List Bool) :
    Device.edge false false si (.reference q) = .reference q := rfl

@[simp] theorem Device.sampled_unspecified (n : Nat) : Device.sampled (.unspecified n) = .unspecified (n + 1) := rfl

@[simp] theorem Device.edge_unspecified (rst en si : Bool) (n : Nat) :
    Device.edge rst en si (.unspecified n) = .unspecified n := rfl

/-- Where samples are free draws, a tick of the controller moves the draw on exactly when it samples (log 1). -/
theorem deviceAfter_unspecified {s t : State} {n : Nat} (h : s.device = .unspecified n) :
    deviceAfter s t = .unspecified (if s.fsm.samples then n + 1 else n) := by
  cases hs : s.fsm.samples <;> cases hr : risingEdge s t <;> simp [deviceAfter, h, hs, hr]

/-- No edge changes the length of the register. -/
theorem Device.edge_length (rst en si : Bool) (q : List Bool) :
    ∃ q', Device.edge rst en si (.reference q) = .reference q' ∧ q'.length = q.length := by
  cases rst <;> cases en <;> simp

@[simp] theorem risingEdge_self (s : State) : risingEdge s s = false := by simp [risingEdge]

/-- A tick whose DCLK does not rise leaves a reference device as it is. -/
theorem deviceAfter_of_not_rising {s t : State} {q : List Bool} (h : risingEdge s t = false)
    (hd : s.device = .reference q) : deviceAfter s t = .reference q := by
  simp [deviceAfter, h, hd]

/-! ### The controller, state by state -/

@[simp] theorem State.busy_eq_false (s : State) : s.busy = false ↔ s.fsm = .idle := by simp [State.busy]

@[simp] theorem State.busy_eq_true (s : State) : s.busy = true ↔ s.fsm ≠ .idle := by simp [State.busy]

theorem State.transition_idle {s : State} (h : s.fsm = .idle) : s.transition = s := by unfold transition; rw [h]

theorem State.transition_enLo {s : State} (h : s.fsm = .enLo) : s.transition = s.tickEnLo := by
  unfold transition; rw [h]

theorem State.transition_enHi {s : State} (h : s.fsm = .enHi) : s.transition = s.tickEnHi := by
  unfold transition; rw [h]

theorem State.transition_rstLo {s : State} (h : s.fsm = .rstLo) : s.transition = s.tickRstLo := by
  unfold transition; rw [h]

theorem State.transition_rstHi {s : State} (h : s.fsm = .rstHi) : s.transition = s.tickRstHi := by
  unfold transition; rw [h]

theorem State.transition_p1Lo {s : State} (h : s.fsm = .p1Lo) : s.transition = s.tickP1Lo := by
  unfold transition; rw [h]

theorem State.transition_p1Hi {s : State} (h : s.fsm = .p1Hi) : s.transition = s.tickP1Hi := by
  unfold transition; rw [h]

theorem State.transition_p2Lo {s : State} (h : s.fsm = .p2Lo) : s.transition = s.tickP2Lo := by
  unfold transition; rw [h]

theorem State.transition_p2Hi {s : State} (h : s.fsm = .p2Hi) : s.transition = s.tickP2Hi := by
  unfold transition; rw [h]

/-- IDLE does nothing (42_protocol.md R98). -/
theorem State.controllerTick_idle {s : State} (h : s.fsm = .idle) : s.controllerTick = s := by
  have hd : deviceAfter s s = s.device := by simp [deviceAfter, h, Fsm.samples]
  rw [State.controllerTick, State.transition_idle h, hd]

/-- Everything a controller transition can do from a busy state: it enters another state from registers in which only
IDX and ECNT may differ, it completes with OK, or it fails with a report. -/
theorem State.transition_cases {s : State} (h : s.fsm ≠ .idle) :
    (∃ i e x, s.transition = State.enter { s with idx := i, ecnt := e } x) ∨
    s.transition = (s.complete .ok).enter .idle ∨
    (∃ c e, s.transition = s.raiseFail c s.idx e s.sample) := by
  cases hf : s.fsm with
  | idle => exact absurd hf h
  | enLo => exact .inl ⟨s.idx, s.ecnt, .enHi, s.transition_enLo hf⟩
  | enHi =>
    rw [s.transition_enHi hf, tickEnHi]
    split
    · exact .inl ⟨s.idx, s.ecnt, .rstLo, rfl⟩
    · exact .inl ⟨s.idx, true, .enLo, rfl⟩
  | rstLo => exact .inl ⟨s.idx, s.ecnt, .rstHi, s.transition_rstLo hf⟩
  | rstHi => exact .inl ⟨0, s.ecnt, .p1Lo, s.transition_rstHi hf⟩
  | p1Lo =>
    rw [s.transition_p1Lo hf, tickP1Lo]
    split
    · exact .inr (.inr ⟨.errP1, false, rfl⟩)
    · exact .inl ⟨s.idx, s.ecnt, .p1Hi, rfl⟩
  | p1Hi =>
    rw [s.transition_p1Hi hf, tickP1Hi]
    split
    · exact .inl ⟨s.idx + 1, s.ecnt, .p1Lo, rfl⟩
    · exact .inl ⟨0, s.ecnt, .p2Lo, rfl⟩
  | p2Lo =>
    rw [s.transition_p2Lo hf, tickP2Lo]
    split
    · exact .inr (.inr ⟨.errP2, s.element, rfl⟩)
    · exact .inl ⟨s.idx, s.ecnt, .p2Hi, rfl⟩
  | p2Hi =>
    rw [s.transition_p2Hi hf, tickP2Hi]
    split
    · exact .inl ⟨s.idx + 1, s.ecnt, .p2Lo, rfl⟩
    · exact .inr (.inl rfl)

/-- A tick of the controller writes no register of a command and no operand (20_memory.md R48). -/
theorem State.controllerTick_frame (s : State) :
    s.controllerTick.fb = s.fb ∧ s.controllerTick.seq = s.seq ∧ s.controllerTick.len = s.len ∧
    s.controllerTick.ovf = s.ovf ∧ s.controllerTick.val = s.val ∧ s.controllerTick.recReg = s.recReg ∧
    s.controllerTick.script = s.script := by
  by_cases h : s.fsm = .idle
  · simp [State.controllerTick_idle h]
  · obtain ⟨i, e, x, hx⟩ | hx | ⟨c, e, hx⟩ := State.transition_cases h <;> simp [hx]

/-! ### A presented command -/

theorem State.present_idle {s : State} (h : s.fsm = .idle) (f : State → State) : s.present f = .next (f s) := by
  simp [State.present, h]

theorem State.present_busy {s : State} (h : s.fsm ≠ .idle) (f : State → State) :
    s.present f = .next s.controllerTick := by
  simp [State.present, h]

/-- While busy, every command is dropped and the tick is the controller's (40_commands.md R65). -/
theorem exec_busy {s : State} (h : s.fsm ≠ .idle) (i : Instr) : exec i s = .next s.controllerTick := by
  cases i <;>
    simp [exec, execNop, execEnc, execDec, execPack, execLdfb, execUnpk, execRun, execRsvd, State.present_busy h]

/-! ### The host -/

theorem hostTick_tick (b : Bool) (p : Ports) (l : List HostItem) : hostTick b (.tick p :: l) = (p, l) := rfl

@[simp] theorem decode_quiet : decode Ports.quiet = .error .noCommand := rfl

/-- What the host presents holds no `rst` = 1. -/
def NoReset (l : List HostItem) : Prop := ∀ p, HostItem.tick p ∈ l → p.rst = false

theorem NoReset.ports {l : List HostItem} (h : NoReset l) (b : Bool) : (hostTick b l).1.rst = false := by
  induction l with
  | nil => rfl
  | cons x l ih =>
    cases x with
    | tick p => exact h p (by simp)
    | wait =>
      cases b
      · exact ih fun p hp => h p (by simp [hp])
      · rfl

theorem NoReset.rest {l : List HostItem} (h : NoReset l) (b : Bool) : NoReset (hostTick b l).2 := by
  induction l with
  | nil => exact h
  | cons x l ih =>
    cases x with
    | tick p => exact fun q hq => h q (by simp [hostTick_tick] at hq; simp [hq])
    | wait =>
      cases b
      · exact ih fun p hp => h p (by simp [hp])
      · exact h

/-! ### The step -/

/-- One accepted command, or one tick of the controller, leaves what the host presents alone. -/
theorem exec_script {i : Instr} {s t : State} (h : exec i s = .next t) : t.script = s.script := by
  have frame := (State.controllerTick_frame s).2.2.2.2.2.2
  by_cases hf : s.fsm = .idle
  · cases i <;>
      simp only [exec, execNop, execEnc, execDec, execPack, execLdfb, execUnpk, execRun, execRsvd,
        State.present_idle hf, Host.Outcome.next.injEq] at h <;> subst h
    case enc v w => by_cases hw : Width.legal w <;> simp [hw]
    case dec q w => by_cases hw : Width.legal w <;> simp [hw]
    all_goals simp
  · cases i <;>
      simp only [exec, execNop, execEnc, execDec, execPack, execLdfb, execUnpk, execRun, execRsvd,
        State.present_busy hf, Host.Outcome.next.injEq] at h <;> subst h <;> exact frame

/-- Everything a step can do: the block reset, a command presented to its own meaning, or a tick of the controller. -/
theorem step_cases {s t : State} (h : step s = .next t) :
    (s.ports.rst = true ∧ t = s.presented.blockReset) ∨
    (s.ports.rst = false ∧ ∃ i, decode s.ports = .ok i ∧ exec i s.presented = .next t) ∨
    (s.ports.rst = false ∧ s.ports.cmdValid = false ∧ t = s.presented.controllerTick) := by
  unfold step at h
  by_cases hr : s.ports.rst
  · simp only [hr, if_true, Host.Outcome.next.injEq] at h
    exact .inl ⟨hr, h.symm⟩
  · have hr' : s.ports.rst = false := by simpa using hr
    simp only [hr', Bool.false_eq_true, if_false] at h
    by_cases hv : s.ports.cmdValid
    · have hd : decode s.ports = .ok (decodeOp s.ports.cmdOp s.ports) := by simp [decode, hv]
      rw [hd] at h
      exact .inr (.inl ⟨hr', _, hd, h⟩)
    · have hd : decode s.ports = .error .noCommand := by simp [decode, hv]
      rw [hd] at h
      exact .inr (.inr ⟨hr', by simpa using hv, (Host.Outcome.next.inj h).symm⟩)

/-- With `rst` = 0 a busy machine makes a tick of its controller, whatever is presented (40_commands.md R65). -/
theorem step_busy {s : State} (h : s.fsm ≠ .idle) (hr : s.ports.rst = false) :
    step s = .next s.presented.controllerTick := by
  unfold step
  rw [if_neg (by simp [hr])]
  split
  · exact exec_busy (by simpa using h) _
  · rfl

/-- A step takes what the host presents one tick further, and does nothing else to it. -/
theorem step_script {s t : State} (h : step s = .next t) : t.script = (hostTick s.busy s.script).2 := by
  obtain ⟨-, rfl⟩ | ⟨-, i, -, hi⟩ | ⟨-, -, rfl⟩ := step_cases h
  · simp
  · simpa using exec_script hi
  · simpa using (State.controllerTick_frame s.presented).2.2.2.2.2.2

theorem runs_zero {s t : State} : Runs 0 s t ↔ t = s :=
  ⟨fun h => (Host.Outcome.next.inj h).symm, fun h => congrArg Host.Outcome.next h.symm⟩

/-- A run of k+1 steps of any machine begins with a step. -/
theorem core_run_succ (M : Host.Core) (k : Nat) (s t : M.State) :
    M.run (k + 1) s = .next t ↔ ∃ u, M.step s = .next u ∧ M.run k u = .next t := by
  simp only [Host.Core.run]
  cases M.step s <;> simp

theorem runs_succ {k : Nat} {s t : State} : Runs (k + 1) s t ↔ ∃ u, step s = .next u ∧ Runs k u t :=
  core_run_succ Sys2Proof.core k s t

/-- A host that never presents `rst` = 1 leaves every RUN undisturbed. -/
theorem undisturbed_of_noReset {s : State} (h : NoReset s.script) : Undisturbed s := by
  intro k
  suffices hk : ∀ s u, NoReset s.script → Runs k s u → u.ports.rst = false from fun u hu _ => hk s u h hu
  induction k with
  | zero =>
    intro s u h hu
    rw [runs_zero.mp hu]
    exact h.ports s.busy
  | succ k ih =>
    intro s u h hu
    obtain ⟨m, hm, hu⟩ := runs_succ.mp hu
    exact ih m u (by rw [step_script hm]; exact h.rest s.busy) hu

end Sys2Proof.Machine
end

