-- ==== Sys2Proof/Laws/PerInstr.lean ====
section
/-! SUPPORT. The family DecodeEncode: the decoder reads back what the encoder presents, one lemma per constructor
(30_encoding.md R50 to R52). -/

namespace Sys2Proof.Laws.DecodeEncode

/-- The ports that present a command decode to it. -/
def Statement (i : Instr) : Prop := decode (encode i) = .ok i

theorem nop : Statement .nop := rfl

theorem enc (v : Bus16) (w : Width) : Statement (.enc v w) := rfl

theorem dec (s : Bus16) (w : Width) : Statement (.dec s w) := rfl

theorem pack (r : Record) : Statement (.pack r) := rfl

theorem ldfb (f : Frame) : Statement (.ldfb f) := rfl

theorem unpk : Statement .unpk := rfl

theorem run : Statement .run := rfl

theorem rsvd : Statement .rsvd := rfl

end Sys2Proof.Laws.DecodeEncode
end

