-- ==== Sys2Proof/Tests/Slice0.lean ====
section
/-! SUPPORT. Tests with expected results from spec/95_test_vectors.md and the rules' own examples, and for every
statement with hypotheses a state that meets them. -/

namespace Sys2Proof.Tests

open Sys2Proof.Machine

/-! ### Well-formedness: one ill-formed command per check, and its legal neighbour (30_encoding.md R53, R62) -/

theorem test_wellFormed_enc_width_zero : (Instr.enc 5 0).wellFormed = false := by decide
theorem test_wellFormed_enc_width_17 : (Instr.enc 5 17).wellFormed = false := by decide
theorem test_wellFormed_dec_width_zero : (Instr.dec 1 0).wellFormed = false := by decide
theorem test_wellFormed_dec_width_31 : (Instr.dec 1 31).wellFormed = false := by decide
theorem test_wellFormed_rsvd : Instr.rsvd.wellFormed = false := by decide
theorem test_wellFormed_enc_width_1_16 :
    (Instr.enc 0xFFFF 1).wellFormed = true ∧ (Instr.enc 0 16).wellFormed = true := by decide
theorem test_wellFormed_dec_width_1_16 :
    (Instr.dec 0xFFFF 1).wellFormed = true ∧ (Instr.dec 0 16).wellFormed = true := by decide

/-! ### Decoding: the pattern written out bit by bit, operand ports beside it (30_encoding.md R51, R52) -/

/-- Every operand port driven, with a different value on each. -/
def allPorts (op : BitVec 3) : Ports :=
  ⟨false, true, op, 0xABCD, 0b10000, 0x80000000000001, ⟨3, 1, true, 0x1234, 0xFFFF, 0x8001, true, false, true⟩⟩

theorem test_decode_nop : decode (allPorts 0b000#3) = .ok .nop := by decide
theorem test_decode_enc : decode (allPorts 0b001#3) = .ok (.enc 0xABCD 16) := by decide
theorem test_decode_dec : decode (allPorts 0b010#3) = .ok (.dec 0xABCD 16) := by decide
theorem test_decode_pack :
    decode (allPorts 0b011#3) = .ok (.pack ⟨3, 1, true, 0x1234, 0xFFFF, 0x8001, true, false, true⟩) := by decide
theorem test_decode_ldfb : decode (allPorts 0b100#3) = .ok (.ldfb 0x80000000000001) := by decide
theorem test_decode_unpk : decode (allPorts 0b101#3) = .ok .unpk := by decide
theorem test_decode_run : decode (allPorts 0b110#3) = .ok .run := by decide
theorem test_decode_rsvd : decode (allPorts 0b111#3) = .ok .rsvd := by decide
theorem test_decode_no_command : decode { allPorts 0b110#3 with cmdValid := false } = .error .noCommand := by decide

theorem test_pattern_run : (encode .run).pattern = 0b1110#4 ∧ Ports.ofPattern 0b1110#4 = encode .run := by decide

/-! ### The codec (95_test_vectors.md V-ENC, V-DEC, V-PACK, V-LDFB and V-UNPK) -/

theorem test_encode_vectors :
    encodeSeq 0x1 2 = 0x2 ∧ encodeSeq 0x1F 2 = 0x3 ∧ encodeSeq 0x12 4 = 0x4 ∧ encodeSeq 0xFFFF 15 = 0x7FFF ∧
    encodeSeq 0x1 16 = 0x8000 ∧ encodeSeq 0xABCD 16 = 0xB3D5 := by decide
theorem test_encode_loop_vectors :
    encodeLoop 0x1 2 = 0x2 ∧ encodeLoop 0x12 4 = 0x4 ∧ encodeLoop 0xABCD 16 = 0xB3D5 := by decide
theorem test_overflow_vectors :
    encodeOverflow 0x3 2 = false ∧ encodeOverflow 0x1F 2 = true ∧ encodeOverflow 0x8000 15 = true ∧
    encodeOverflow 0xFFFF 16 = false := by decide
theorem test_decode_vectors :
    decodeSeq 0xFFFE 2 = 1 ∧ decodeSeq 0x4 3 = 1 ∧ decodeSeq 0x1 16 = 0x8000 ∧ decodeSeq 0xB3D5 16 = 0xABCD := by decide

/-- The mixed record R of V-PACK. -/
def mixedRecord : Record := ⟨3, 1, true, 0x1234, 0xFFFF, 0x8001, true, false, true⟩

theorem test_pack_mixed : pack mixedRecord = 0xB0003FFFE5891B := by decide +kernel
theorem test_wordView_mixed : wordView (pack mixedRecord) = 0xD891A7FFFC000D := by decide +kernel
theorem test_unpack_mixed : unpack 0xB0003FFFE5891B = mixedRecord := by decide
theorem test_unpack_frameD : unpack 0x80000000000001 = { Record.zero with dff1 := 2, main3 := true } := by decide
theorem test_pack_lut2_entry0 : pack { Record.zero with lut2 := 0x0001 } = 0x100000 := by decide +kernel

/-! ### One step on a small state -/

/-- The state after reset, with a frame in FB and the host about to present a command. -/
def presenting (f : Frame) (i : Instr) : State := { State.reset with fb := f, script := [.tick (encode i)] }

/-- A field of the state after a step that does not stop. -/
def afterStep {α : Type} (s : State) (f : State → α) : Option α :=
  match step s with
  | .next t => some (f t)
  | .fault _ => none
  | .refused _ => none

theorem test_nop_keeps_status :
    afterStep { presenting 0 .nop with done := true, result := .ok } State.status = some 0x0006#16 := by decide
theorem test_rsvd_status : afterStep (presenting 0 .rsvd) State.status = some 0x0012#16 := by decide
theorem test_rsvd_keeps_ovf :
    afterStep { presenting 0 .rsvd with done := true, result := .ok, ovf := true } State.status = some 0x0032#16 := by
  decide
theorem test_enc_truncates :
    afterStep (presenting 0 (.enc 0x1F 2)) (fun t => (t.seq, t.len, t.ovf, t.status)) =
      some (0x3#16, 2#5, true, 0x0026#16) := by decide
theorem test_enc_width_error_keeps :
    afterStep { presenting 0 (.enc 0x5 0) with seq := 3, len := 2, ovf := true } (fun t => (t.seq, t.len, t.status)) =
      some (3#16, 2#5, 0x0036#16) := by decide
theorem test_dec_value : afterStep (presenting 0 (.dec 0xB3D5 16)) State.val = some 0xABCD#16 := by decide
theorem test_dec_width_error :
    afterStep { presenting 0 (.dec 0x1 20) with val := 3 } (fun t => (t.val, t.result)) = some (3#16, .errWidth) := by
  decide
theorem test_pack_main3 :
    afterStep (presenting 5 (.pack { Record.zero with main3 := true })) State.fb = some 0x80000000000000#56 := by
  decide +kernel
theorem test_ldfb_frameC :
    afterStep (presenting 5 (.ldfb 0xC0000000155540)) State.fb = some 0xC0000000155540#56 := by decide
theorem test_unpk_frameC :
    afterStep (presenting 0xC0000000155540 .unpk) State.recReg =
      some { Record.zero with lut2 := 0x5555, main2 := true, main3 := true } := by decide
theorem test_run_accepted :
    afterStep { presenting 3 .run with done := true, result := .ok, dclk := true }
      (fun t => (t.status, t.fsm, t.dclk, t.drst, t.den, t.dsi)) =
      some (0x0001#16, .enLo, false, false, true, false) := by decide

/-- A state of a RUN, as the controller enters it. -/
def atState (x : Fsm) (i : Idx) (f : Frame) (q : List Bool) : State :=
  State.enter { State.resetWith q with idx := i, ecnt := x.pastEnable, fb := f } x

/-- The codes of 10_state.md R15 on `dbg_state`, in the order in which the states run. -/
theorem test_dbg_state_codes :
    ([.idle, .enLo, .enHi, .rstLo, .rstHi, .p1Lo, .p1Hi, .p2Lo, .p2Hi].map fun x =>
      (atState x 0 0 []).outputs.dbgState.toNat) = [0, 1, 2, 3, 4, 5, 6, 7, 8] := by decide

/-- Trace T1, tick 8: the rising edge after a pass-1 check shifts FB[0] in. -/
theorem test_run_shifts_in :
    afterStep (atState .p1Lo 0 1 [false, false]) State.device = some (.reference [true, false]) := by decide
/-- V-RUN, frame F on L = 0: pass 1 fails at index 0. -/
theorem test_run_aborts_on_wire :
    afterStep (atState .p1Lo 0 1 []) (fun t => (t.report, t.fsm, t.den)) =
      some (⟨.errP1, 0, false, true⟩, .idle, false) := by decide

theorem test_reset_wins_over_command :
    afterStep { atState .p2Lo 3 7 [true] with script := [.tick { encode .rsvd with rst := true }] }
      (fun t => (t.status, t.fb, t.dclk, t.device)) = some (0x0000#16, 0#56, false, .reference [true]) := by decide

/-- The word that places RUN runs it as the first command after reset (log 9). -/
theorem test_withFetchWord_run :
    afterStep (State.reset.withFetchWord 8 0b1110) (fun t => (t.fsm, t.den, t.script)) = some (.enLo, true, []) := by
  decide
theorem test_withFetchWord_rsvd :
    step (State.reset.withFetchWord 8 0b1111) = exec .rsvd State.reset ∧
      afterStep (State.withFetchWord (atState .p1Lo 3 1 [true]) 8 0b1111) State.result = some .errCmd :=
  ⟨rfl, by decide⟩

/-- V-RUN, frame C on L = 28, by the pure function. -/
theorem test_verify_frameC_28 : verify 28 0xC0000000155540 = ⟨.errP1, 34, false, true⟩ := by decide
/-- V-RUN, frame Last on L = 57. -/
theorem test_verify_last_57 : verify 57 0x80000000000000 = ⟨.errP2, 55, true, false⟩ := by decide

/-! ### The host's text (40_commands.md R69) -/

theorem test_text_seq_literal : parseProgram "DEC seq\"001\", 2".toList = some [.cmd (.dec 4 2)] := by decide
theorem test_text_program :
    parseProgram "LDFB 0x80000000000001\nUNPK\nRUN\nWAIT\n.cmd 111".toList =
      some [.cmd (.ldfb 0x80000000000001), .cmd .unpk, .cmd .run, .wait, .raw 7 0 0 0 Record.zero] := by decide
/-- Several operands of one `.cmd` line, separated by a comma and by a blank (log 7). -/
theorem test_text_raw_operands :
    parseProgram ".cmd 001, arg_value=5, arg_width=2\n.cmd 001, arg_value=5 arg_width=2".toList =
      some [.raw 1 5 2 0 Record.zero, .raw 1 5 2 0 Record.zero] := by decide
theorem test_text_too_wide_refused : parseProgram "ENC 0x10000, 1".toList = none := by decide

/-! ### Witnesses: states that meet the hypotheses of the statements -/

theorem atState_inv (x : Fsm) (i : Idx) (f : Frame) (q : List Bool) (h : i.toNat ≤ 55)
    (h' : x ≠ .idle → x.inPass = false → i = 0) : StateInv (atState x i f q) := by
  cases x <;> constructor <;>
    simp_all [atState, State.resetWith, State.reset, State.element, State.report, Fsm.dclkRow, Fsm.drstRow,
      Fsm.denRow, Fsm.dsiRow, Fsm.pastEnable, Fsm.inPass]

/-- The tick in which a RUN on frame f is accepted, with a reference device attached and a host that then presents
nothing. -/
def startRun (f : Frame) (q : List Bool) : State :=
  { State.resetWith q with fb := f, script := [.tick (encode .run)] }

theorem startRun_accepts (f : Frame) (q : List Bool) : Accepts (startRun f q) .run := ⟨rfl, rfl, rfl⟩

theorem presenting_accepts (f : Frame) (i : Instr) : Accepts (presenting f i) i := by
  cases i <;> exact ⟨rfl, rfl, rfl⟩

theorem noReset_encode (i : Instr) : NoReset [.tick (encode i)] := by
  intro p hp
  obtain rfl : p = encode i := by simpa using hp
  cases i <;> rfl

theorem startRun_undisturbed (f : Frame) (q : List Bool) : Undisturbed (startRun f q) :=
  undisturbed_of_noReset (noReset_encode .run)

theorem witness_DecodeFollowsTheOpcodeMap :
    (allPorts 0b000#3).cmdValid = true ∧ (allPorts 0b111#3).cmdOp = 0b111#3 ∧ Ports.quiet.cmdValid = false := by decide

theorem witness_DecodeAndEncodeAgree : decode (allPorts 0b001#3) = .ok (.enc 0xABCD 16) := by decide

/-- Two ENC ticks that agree on ENC's operands and differ on the others. -/
theorem witness_UnreadOperandPortsAreIgnored :
    let p := allPorts 0b001#3
    let q := { p with argFb := 0, recIn := Record.zero }
    p ≠ q ∧ p.rst = q.rst ∧ p.cmdValid = q.cmdValid ∧ p.cmdOp = q.cmdOp ∧
      (p.cmdOp = 0b001#3 ∨ p.cmdOp = 0b010#3 → p.argValue = q.argValue ∧ p.argWidth = q.argWidth) ∧
      (p.cmdOp = 0b011#3 → p.recIn = q.recIn) ∧ (p.cmdOp = 0b100#3 → p.argFb = q.argFb) := by decide

theorem witness_StepRunsTheDecodedCommand :
    (presenting 0 .unpk).ports.rst = false ∧ decode (presenting 0 .unpk).ports = .ok .unpk ∧
      State.reset.ports.rst = false ∧ State.reset.fsm = .idle ∧ State.reset.ports.cmdValid = false := by decide

theorem witness_CommandsWhileBusyAreDropped :
    (atState .p1Lo 3 1 [false]).fsm ≠ .idle ∧ (encode (.enc 1 1)).rst = false ∧ (encode (.enc 1 1)).cmdValid = true := by
  decide

theorem witness_AcceptanceNeedsIdleValidAndNoReset :
    (presenting 0 .run).script = [.tick (encode .run)] ∧
      ((encode .run).rst = false ∧ (encode .run).cmdValid = true ∧ (presenting 0 .run).fsm = .idle) ∧
      ¬ ((encode .run).rst = false ∧ (encode .run).cmdValid = true ∧ (atState .enLo 0 0 []).fsm = .idle) := by decide

theorem witness_NopWritesNothing : State.reset.fsm = .idle ∧ (atState .idle 55 7 [true]).fsm = .idle := by decide

theorem witness_ReservedCodeCompletesWithErrCmd :
    (allPorts 0b111#3).cmdValid = true ∧ (allPorts 0b111#3).cmdOp = 0b111#3 ∧ State.reset.fsm = .idle ∧
      (atState .p2Hi 55 7 [true]).fsm ≠ .idle ∧
      exec .rsvd State.reset = .next { State.reset with done := true, result := .errCmd } :=
  ⟨rfl, rfl, rfl, by decide, rfl⟩

/-- The widths at the ends of the legal range and just outside it. -/
theorem witness_EncWritesSequenceLengthAndOverflow :
    State.reset.fsm = .idle ∧ (1 ≤ (1#5).toNat ∧ (1#5).toNat ≤ 16) ∧ (1 ≤ (16#5).toNat ∧ (16#5).toNat ≤ 16) ∧
      ¬ (1 ≤ (0#5).toNat ∧ (0#5).toNat ≤ 16) ∧ ¬ (1 ≤ (17#5).toNat ∧ (17#5).toNat ≤ 16) ∧
      ¬ (1 ≤ (31#5).toNat ∧ (31#5).toNat ≤ 16) := by decide

/-- Legal and illegal widths, and two sequences that agree below the width and differ above it. -/
theorem witness_DecWritesTheValue :
    State.reset.fsm = .idle ∧ (1 ≤ (2#5).toNat ∧ (2#5).toNat ≤ 16) ∧ ¬ (1 ≤ (20#5).toNat ∧ (20#5).toNat ≤ 16) ∧
      (∀ k, k < (2#5).toNat → (0xFFFE#16).getLsbD k = (0x2#16).getLsbD k) ∧ (0xFFFE#16) ≠ 0x2#16 := by decide

theorem witness_PackWritesTheFrame :
    State.reset.fsm = .idle ∧ (55 : Nat) < 56 ∧ Record.zero ≠ { Record.zero with main3 := true } := by decide

theorem witness_LdfbWritesTheOperand : (atState .idle 3 9 []).fsm = .idle := by decide

theorem witness_RunAcceptanceEntersEnable : { atState .idle 55 9 [true] with dclk := true, done := true }.fsm = .idle := by
  decide

theorem witness_UnpkWritesTheRecord :
    State.reset.fsm = .idle ∧
      (∃ t u, exec (.pack mixedRecord) State.reset = .next t ∧ exec .unpk t = .next u) :=
  ⟨rfl, _, _, rfl, rfl⟩

theorem witness_OneTickCommandsComplete :
    State.reset.fsm = .idle ∧ Instr.rsvd ≠ .nop ∧ Instr.rsvd ≠ .run ∧ Instr.enc 1 0 ≠ .nop ∧ Instr.enc 1 0 ≠ .run ∧
      Instr.unpk ≠ .nop ∧ Instr.unpk ≠ .run := by decide

/-- Each register changes in some tick with `rst` = 0. -/
theorem witness_RegistersHaveOnlyTheirWriters :
    (∃ t, step (presenting 0 (.ldfb 1)) = .next t ∧ t.fb ≠ (presenting 0 (.ldfb 1)).fb) ∧
    (∃ t, step (presenting 0 (.enc 1 1)) = .next t ∧ (t.seq, t.len, t.ovf) ≠ (0#16, 0#5, false)) ∧
    (∃ t, step (presenting 0 (.dec 1 1)) = .next t ∧ t.val ≠ 0) ∧
    (∃ t, step (presenting 1 .unpk) = .next t ∧ t.recReg ≠ Record.zero) ∧
    (∃ t, step (atState .p1Lo 3 9 [true]) = .next t ∧ (t.failIdx, t.failExp, t.failObs) ≠ (0#6, false, false)) :=
  ⟨⟨_, rfl, by decide⟩, ⟨_, rfl, by decide⟩, ⟨_, rfl, by decide⟩, ⟨_, rfl, by decide⟩, ⟨_, rfl, by decide⟩⟩

/-- Each outcome is written in some tick with `rst` = 0. -/
theorem witness_ResultCodesHaveTheirCauses :
    (∃ t, step { presenting 0 .run with result := .ok } = .next t ∧ t.result = .none) ∧
    (∃ t, step (presenting 0 .unpk) = .next t ∧ t.result = .ok) ∧
    (∃ t, step (atState .p2Hi 55 9 [true]) = .next t ∧ t.result = .ok) ∧
    (∃ t, step (atState .p1Lo 55 9 [true]) = .next t ∧ t.result = .errP1) ∧
    (∃ t, step (atState .p2Lo 0 9 [false]) = .next t ∧ t.result = .errP2) ∧
    (∃ t, step (presenting 0 .rsvd) = .next t ∧ t.result = .errCmd) ∧
    (∃ t, step (presenting 0 (.enc 1 17)) = .next t ∧ t.result = .errWidth) ∧
    (∃ t, step (presenting 0 (.dec 1 0)) = .next t ∧ t.result = .errWidth) :=
  ⟨⟨_, rfl, rfl⟩, ⟨_, rfl, rfl⟩, ⟨_, rfl, rfl⟩, ⟨_, rfl, rfl⟩, ⟨_, rfl, rfl⟩, ⟨_, rfl, rfl⟩, ⟨_, rfl, rfl⟩,
    ⟨_, rfl, rfl⟩⟩

theorem witness_EncodeEmitsMsbFirst : 1 ≤ 1 ∧ 1 ≤ 16 ∧ 16 ≤ 16 ∧ 0 < 1 ∧ 15 < 16 := by decide

/-- A value that fits its width and one that does not. -/
theorem witness_DecodeAfterEncodeTruncates : 1 ≤ 2 ∧ 2 ≤ 16 ∧ (3#16).toNat < 2 ^ 2 ∧ ¬ (0x1F#16).toNat < 2 ^ 2 := by
  decide

theorem witness_EncodeAfterDecodeMasks : 1 ≤ 1 ∧ 1 ≤ 16 ∧ 16 ≤ 16 := by decide

theorem witness_PackConcatenatesFieldEncodings : 1 ≤ 1 ∧ 1 ≤ 16 ∧ 16 ≤ 16 := by decide

/-- Indices just outside each field's range, and the ends of a LUT. -/
theorem witness_FieldsAreLocalInTheFrame :
    2 ≤ 2 ∧ (1 < 2 ∨ 4 ≤ 1) ∧ 5 ≠ 4 ∧ (4 < 5 ∨ 21 ≤ 4) ∧ (37 < 21 ∨ 37 ≤ 37) ∧ (53 < 37 ∨ 53 ≤ 53) ∧ 54 ≠ 53 ∧
      55 ≠ 54 ∧ 54 ≠ 55 ∧ 0 < 16 ∧ 15 < 16 := by decide

/-- The ends of each field's range. -/
theorem witness_FrameElementsHoldTheirRecordBits :
    1 ≤ 1 ∧ (2 ≤ 2 ∧ 3 ≤ 3) ∧ (5 ≤ 5 ∧ 20 ≤ 20) ∧ (21 ≤ 21 ∧ 36 ≤ 36) ∧ (37 ≤ 37 ∧ 52 ≤ 52) := by decide

theorem witness_UnpackReadsEveryRecordBit : 0 ≤ 15 ∧ 15 ≤ 15 := by decide

/-- Two sequences that agree below the width and differ above it (R72). -/
theorem witness_DecodeIsTheWeightedSum :
    1 ≤ 2 ∧ 2 ≤ 16 ∧ (∀ k, k < 2 → (0xFFFE#16).getLsbD k = (0x2#16).getLsbD k) ∧ (0xFFFE#16) ≠ 0x2#16 := by decide

theorem witness_EnableAndResetTransitions :
    StateInv (atState .enLo 0 1 [true]) ∧ StateInv (atState .enHi 0 1 [true]) ∧
      StateInv { atState .enHi 0 1 [true] with ecnt := true } ∧ StateInv (atState .rstLo 0 1 [true]) ∧
      StateInv (atState .rstHi 0 1 [true]) ∧ (atState .rstHi 0 1 [true]).ports.rst = false := by
  have h := atState_inv .enHi 0 1 [true] (by decide) (by decide)
  exact ⟨atState_inv .enLo 0 1 [true] (by decide) (by decide), h,
    ⟨h.dclk, h.drst, h.den, h.dsi, h.idx, h.idxStart, fun _ => rfl, h.running, h.outcome, h.failIdx, h.failP1, h.failP2,
      h.len, h.seqPadding⟩,
    atState_inv .rstLo 0 1 [true] (by decide) (by decide), atState_inv .rstHi 0 1 [true] (by decide) (by decide), rfl⟩

/-- A pass-1 check that fails and one that passes, at both ends of the index. -/
theorem witness_PassOneCheck :
    StateInv (atState .p1Lo 0 1 [true]) ∧ (atState .p1Lo 0 1 [true]).sample = true ∧
      StateInv (atState .p1Lo 55 1 [false]) ∧ (atState .p1Lo 55 1 [false]).sample = false ∧
      (atState .p1Lo 55 1 [false]).ports.rst = false :=
  ⟨atState_inv _ _ _ _ (by decide) (by decide), rfl, atState_inv _ _ _ _ (by decide) (by decide), rfl, rfl⟩

/-- A pass-2 check that fails and one that passes. -/
theorem witness_PassTwoCheck :
    (atState .p2Lo 0 1 [false]).sample ≠ (atState .p2Lo 0 1 [false]).element ∧
      (atState .p2Lo 55 1 [false]).sample = (atState .p2Lo 55 1 [false]).element ∧
      (atState .p2Lo 55 1 [false]).ports.rst = false := by decide

/-- Both passes, below and at the last index. -/
theorem witness_PassHighTransitions :
    StateInv (atState .p1Hi 54 1 []) ∧ StateInv (atState .p1Hi 55 1 []) ∧ StateInv (atState .p2Hi 54 1 []) ∧
      StateInv (atState .p2Hi 55 1 []) ∧ (atState .p2Hi 54 1 []).idx.toNat < 55 ∧
      (atState .p2Hi 55 1 []).idx.toNat = 55 ∧ (atState .p2Hi 55 1 []).ports.rst = false :=
  ⟨atState_inv _ _ _ _ (by decide) (by decide), atState_inv _ _ _ _ (by decide) (by decide),
    atState_inv _ _ _ _ (by decide) (by decide), atState_inv _ _ _ _ (by decide) (by decide), by decide, by decide, rfl⟩

theorem witness_FailingCheckAbortsPrecisely :
    StateInv (atState .p1Lo 55 1 [true]) ∧
      ((atState .p1Lo 55 1 [true]).fsm = .p1Lo ∧ (atState .p1Lo 55 1 [true]).sample = true) ∧
      StateInv (atState .p2Lo 0 1 [false]) ∧
      ((atState .p2Lo 0 1 [false]).fsm = .p2Lo ∧
        (atState .p2Lo 0 1 [false]).sample ≠ (atState .p2Lo 0 1 [false]).element) ∧
      (atState .p2Lo 0 1 [false]).ports.rst = false :=
  ⟨atState_inv _ _ _ _ (by decide) (by decide), by decide, atState_inv _ _ _ _ (by decide) (by decide), by decide, rfl⟩

theorem witness_IdleIsQuietAndLeftOnlyByRun :
    StateInv (atState .idle 55 1 [true]) ∧ (atState .idle 55 1 [true]).ports.rst = false ∧
      (atState .idle 55 1 [true]).fsm = .idle ∧ ¬ Accepts (atState .idle 55 1 [true]) .run ∧
      Accepts (startRun 1 [true]) .run :=
  ⟨atState_inv _ _ _ _ (by decide) (by decide), rfl, rfl, fun h => absurd h.2.1 (by decide), startRun_accepts 1 [true]⟩

/-- A step from a state of the invariant, with a rising edge, and one with a falling edge. -/
theorem witness_StepKeepsTheInvariant :
    StateInv (atState .p1Lo 7 1 [false]) ∧
      (∃ t, step (atState .p1Lo 7 1 [false]) = .next t ∧ risingEdge (atState .p1Lo 7 1 [false]) t = true) ∧
      StateInv (atState .p1Hi 7 1 [false]) ∧
      ∃ t, step (atState .p1Hi 7 1 [false]) = .next t ∧ risingEdge (atState .p1Hi 7 1 [false]) t = false :=
  ⟨atState_inv _ _ _ _ (by decide) (by decide), ⟨_, rfl, rfl⟩, atState_inv _ _ _ _ (by decide) (by decide), _, rfl, rfl⟩

/-- Each kind of boundary that the statements about edges of the invariant speak of. -/
theorem witness_NoInputChangesAtADeviceEdge :
    (StateInv (atState .p2Lo 7 0 [false]) ∧ ∃ t, step (atState .p2Lo 7 0 [false]) = .next t ∧ t.fsm = .p2Hi) ∧
      (StateInv (atState .p2Hi 55 0 [false]) ∧ ∃ t, step (atState .p2Hi 55 0 [false]) = .next t ∧ t.fsm = .idle) ∧
      (StateInv (startRun 0 []) ∧ ∃ t, step (startRun 0 []) = .next t ∧ t.fsm = .enLo) :=
  ⟨⟨atState_inv _ _ _ _ (by decide) (by decide), _, rfl, rfl⟩,
    ⟨atState_inv _ _ _ _ (by decide) (by decide), _, rfl, rfl⟩,
    ⟨by constructor <;> simp [startRun, State.resetWith, State.reset, State.report], _, rfl, rfl⟩⟩

theorem witness_DeviceClockIsASquareWave :
    (atState .p2Lo 7 0 [false]).ports.rst = false ∧ (startRun 0 []).ports.rst = false ∧
      ∃ t, step (atState .p2Lo 7 0 [false]) = .next t ∧ t.fsm ≠ .idle :=
  ⟨rfl, rfl, _, rfl, by decide⟩

/-- The hypotheses of the device's clock edge, on a register of two stages. -/
theorem witness_DeviceEdgeClearsShiftsOrHolds : (0 : Nat) < [true, false].length ∧ 1 ≤ 1 ∧ 1 < [true, false].length := by
  decide

theorem witness_DeviceMovesOnlyAtRisingEdges :
    StateInv (atState .p1Lo 7 1 [false]) ∧ (atState .p1Lo 7 1 [false]).device = .reference [false] ∧
      ∃ t, step (atState .p1Lo 7 1 [false]) = .next t ∧ (atState .p1Lo 7 1 [false]).dclk = false ∧ t.dclk = true :=
  ⟨atState_inv _ _ _ _ (by decide) (by decide), rfl, _, rfl, rfl, rfl⟩

theorem witness_SerialOutIsTheLastStage :
    (atState .p1Lo 0 1 []).device = .reference [] ∧ (atState .p1Lo 0 1 [false, true]).device = .reference [false, true] :=
  ⟨rfl, rfl⟩

theorem witness_SerialOutDelaysByTheLength : [true, false][1]? = some false ∧ 111 < 112 := by decide

/-- A RUN that every statement about whole runs speaks of: any frame, any device, an undisturbed host. -/
theorem witness_RunComputesVerify (f : Frame) (q : List Bool) :
    (startRun f q).device = .reference q ∧ Accepts (startRun f q) .run ∧ Undisturbed (startRun f q) :=
  ⟨rfl, startRun_accepts f q, startRun_undisturbed f q⟩

/-- The passing RUNs: of a frame on length 56, and of the zero frame on a wrong length. -/
theorem witness_PassingRunTimeline :
    (verify (List.replicate 56 true).length 0xC0000000155540).result = .ok ∧ (verify 0 0).result = .ok ∧
      Undisturbed (startRun 0xC0000000155540 (List.replicate 56 true)) :=
  ⟨by decide, by decide, startRun_undisturbed _ _⟩

/-- A RUN for each of the three outcomes: passing on a wire, aborting in pass 1, and aborting in pass 2. -/
theorem witness_RunGivesTheDeviceItsEdges :
    (∀ f q, (startRun f q).device = .reference q ∧ Accepts (startRun f q) .run ∧ Undisturbed (startRun f q) ∧
      (startRun f q).fb = f) ∧
      (verify ([] : List Bool).length 0).result = .ok ∧ (verify [true].length 1).result = .errP1 ∧
      (verify (List.replicate 57 true).length 1).result = .errP2 :=
  ⟨fun f q => ⟨rfl, startRun_accepts f q, startRun_undisturbed f q, rfl⟩, by decide, by decide, by decide⟩

/-- RUNs that abort at each end of each pass, on a wire and on a register of 57 stages. -/
theorem witness_AbortedRunTimeline :
    (∀ f q, (startRun f q).device = .reference q ∧ Accepts (startRun f q) .run ∧ Undisturbed (startRun f q) ∧
      (startRun f q).fb = f) ∧
      ((verify 0 1).result = .errP1 ∧ (verify 0 1).failIdx.toNat = 0) ∧
      ((verify 0 0x80000000000000).result = .errP1 ∧ (verify 0 0x80000000000000).failIdx.toNat = 55) ∧
      ((verify 57 1).result = .errP2 ∧ (verify 57 1).failIdx.toNat = 0) ∧
      ((verify 57 0x80000000000000).result = .errP2 ∧ (verify 57 0x80000000000000).failIdx.toNat = 55) :=
  ⟨fun f q => ⟨rfl, startRun_accepts f q, startRun_undisturbed f q, rfl⟩, by decide, by decide, by decide, by decide⟩

theorem witness_WrongLengthPassesOnlyTheZeroFrame : (55 : Nat) ≠ 56 ∧ (57 : Nat) ≠ 56 ∧ (0 : Nat) ≠ 56 := by decide

theorem witness_FrameDMeasuresTheLength : (0 : Nat) ≤ 55 ∧ (55 : Nat) ≤ 55 ∧ (57 : Nat) ≤ 57 := by decide

/-- An accepted command on a device whose samples are free draws. -/
theorem witness_EveryCommandEndsWithin231Ticks (i : Instr) :
    Accepts (presenting 1 i) i ∧ Undisturbed (presenting 1 i) :=
  ⟨presenting_accepts 1 i, undisturbed_of_noReset (noReset_encode i)⟩

theorem witness_RunEndStateAndLoadedDevice :
    Accepts (startRun 1 (List.replicate 56 true)) .run ∧ Undisturbed (startRun 1 (List.replicate 56 true)) ∧
      (startRun 1 (List.replicate 56 true)).device = .reference (List.replicate 56 true) ∧
      (List.replicate 56 true).length = 56 :=
  ⟨startRun_accepts _ _, startRun_undisturbed _ _, rfl, rfl⟩

/-- The same RUN under a host that presents commands while it is busy. -/
theorem witness_HostCannotDisturbARun :
    let s := startRun 1 [true]
    let s' := { s with script := [.tick (encode .run), .tick (encode .rsvd), .wait, .tick (encode (.ldfb 9))] }
    s' = { s with script := s'.script } ∧ Accepts s .run ∧ Accepts s' .run ∧ Undisturbed s ∧ Undisturbed s' := by
  refine ⟨rfl, startRun_accepts _ _, ⟨rfl, rfl, rfl⟩, startRun_undisturbed _ _, undisturbed_of_noReset ?_⟩
  intro p hp
  obtain rfl | rfl | rfl : p = encode .run ∨ p = encode .rsvd ∨ p = encode (.ldfb 9) := by simpa using hp
  all_goals rfl

theorem witness_BlockResetGivesTheResetState :
    (State.ports { atState .p2Hi 9 7 [true] with script := [.tick { encode .run with rst := true }] }).rst = true := by
  decide

theorem witness_StatusWordLayout :
    StateInv (atState .p2Hi 55 1 [true]) ∧ (atState .p2Hi 55 1 [true]).ports.rst = false ∧
      ∃ t, step (atState .p2Hi 55 1 [true]) = .next t :=
  ⟨atState_inv _ _ _ _ (by decide) (by decide), rfl, _, rfl⟩

/-- On a device whose samples are free draws: both checks, a tick that samples nothing, and a check under `rst` = 1. -/
theorem witness_FreeSamplesAreNewAtEveryCheck :
    let p1 := { atState .p1Lo 0 1 [] with device := .unspecified 4 }
    let p2 := { atState .p2Lo 55 1 [] with device := .unspecified 4 }
    let hi := { atState .p1Hi 7 1 [] with device := .unspecified 4 }
    let rst := { p1 with script := [.tick { Ports.quiet with rst := true }] }
    p1.ports.rst = false ∧ p1.fsm = .p1Lo ∧ p2.ports.rst = false ∧ p2.fsm = .p2Lo ∧
      ¬ (hi.ports.rst = false ∧ (hi.fsm = .p1Lo ∨ hi.fsm = .p2Lo)) ∧
      ¬ (rst.ports.rst = false ∧ (rst.fsm = .p1Lo ∨ rst.fsm = .p2Lo)) := by decide

theorem witness_OutputsDependOnRegistersOnly :
    State.reset.fsm = .idle ∧ ∀ x, (atState x 0 0 []).fsm = x := ⟨rfl, fun _ => rfl⟩

theorem witness_PseudoInstructionsExpand :
    (State.withProgram (atState .p1Lo 3 1 [false]) [.wait, .cmd .run]).script = .wait :: programItems [.cmd .run] ∧
      (State.withProgram (atState .p1Lo 3 1 [false]) [.wait, .cmd .run]).busy = true ∧
      (State.withProgram State.reset [.wait, .cmd .run]).busy = false ∧
      (State.withProgram State.reset [.cmd .run, .cmd (.enc 1 1)]).fsm = .idle :=
  ⟨rfl, rfl, rfl, rfl⟩

end Sys2Proof.Tests
end

-- ==== Proofs of the family 20_memory.md ====
section

namespace Sys2Proof.Machine

/-! ### Serial-out (20_memory.md R41) -/

/-- Serial-out of a reference device with at least one stage is its last stage. -/
theorem Device.serialOut_eq_last_stage {q : List Bool} (h : 1 ≤ q.length) (si : Bool) :
    some (Device.serialOut (.reference q) si) = q[q.length - 1]? := by
  obtain rfl | ⟨p, b, rfl⟩ := List.eq_nil_or_concat q
  · simp at h
  · simp

/-! ### Rising edges of `dut_clk` (20_memory.md R43) -/

theorem risingEdge_eq_true {s t : State} : risingEdge s t = true ↔ s.dclk = false ∧ t.dclk = true := by
  simp [risingEdge]

/-- The invariant does not speak of what the host presents. -/
theorem StateInv.presented {s : State} (h : StateInv s) : StateInv s.presented where
  dclk := h.dclk
  drst := h.drst
  den := h.den
  dsi := h.dsi
  idx := h.idx
  idxStart := h.idxStart
  ecnt := h.ecnt
  running := h.running
  outcome := h.outcome
  failIdx := h.failIdx
  failP1 := h.failP1
  failP2 := h.failP2
  len := h.len
  seqPadding := h.seqPadding

/-- An accepted command leaves the device alone, and DCLK keeps its value or is cleared (42_protocol.md R98). -/
theorem exec_idle_device_dclk {s t : State} {i : Instr} (hf : s.fsm = .idle) (h : exec i s = .next t) :
    t.device = s.device ∧ (t.dclk = true → s.dclk = true) := by
  cases i <;>
    simp only [exec, execNop, execEnc, execDec, execPack, execLdfb, execUnpk, execRun, execRsvd,
      State.present_idle hf, Host.Outcome.next.injEq] at h <;> subst h
  case enc v w => by_cases hw : Width.legal w <;> simp [hw]
  case dec q w => by_cases hw : Width.legal w <;> simp [hw]
  all_goals simp

/-- A step is a tick of the controller, or it leaves the device alone and makes no rising edge: a block reset clears
DCLK, and an accepted command never raises it. -/
theorem step_controllerTick_or_no_edge {s t : State} (h : step s = .next t) :
    t = s.presented.controllerTick ∨ (t.device = s.device ∧ ¬ (s.dclk = false ∧ t.dclk = true)) := by
  obtain ⟨-, rfl⟩ | ⟨-, i, -, hi⟩ | ⟨-, -, rfl⟩ := step_cases h
  · exact .inr (by simp [State.reset])
  · by_cases hf : s.fsm = .idle
    · obtain ⟨hdev, hclk⟩ := exec_idle_device_dclk (s := s.presented) hf hi
      exact .inr ⟨hdev, fun ⟨hlow, hhigh⟩ => absurd (hclk hhigh) (by simp [hlow])⟩
    · rw [exec_busy (by simpa using hf)] at hi
      exact .inl (Host.Outcome.next.inj hi).symm
  · exact .inl rfl

/-- In the invariant, a transition that raises DCLK goes from a LO state to its HI state, whose row of
42_protocol.md R89 drives the same DRST, DEN and DSI. -/
theorem StateInv.rising_transition_keeps_rows {s : State} (hs : StateInv s) (hlow : s.dclk = false)
    (hhigh : s.transition.dclk = true) :
    ∃ x : Fsm, s.transition = s.enter x ∧ x.drstRow = s.fsm.drstRow ∧ x.denRow = s.fsm.denRow ∧
      ∀ b, x.dsiRow b = s.fsm.dsiRow b := by
  have hclk := hs.dclk
  cases hf : s.fsm with
  | idle => simp [State.transition_idle hf, hlow] at hhigh
  | enHi | rstHi | p1Hi | p2Hi => simp [hf, hlow] at hclk
  | enLo => exact ⟨.enHi, State.transition_enLo hf, by simp⟩
  | rstLo => exact ⟨.rstHi, State.transition_rstLo hf, by simp⟩
  | p1Lo =>
    rw [State.transition_p1Lo hf, State.tickP1Lo] at hhigh ⊢
    split at hhigh
    · simp [hlow] at hhigh
    · exact ⟨.p1Hi, if_neg ‹_›, by simp⟩
  | p2Lo =>
    rw [State.transition_p2Lo hf, State.tickP2Lo] at hhigh ⊢
    split at hhigh
    · simp [hlow] at hhigh
    · exact ⟨.p2Hi, if_neg ‹_›, by simp⟩

/-- In the invariant, the device's inputs are stable over a rising edge that the controller makes. -/
theorem StateInv.inputs_stable_at_rising_edge {s : State} (hs : StateInv s) (hlow : s.dclk = false)
    (hhigh : s.transition.dclk = true) :
    (s.transition.drst, s.transition.den, s.transition.dsi) = (s.drst, s.den, s.dsi) := by
  obtain ⟨x, hx, hdrst, hden, hdsi⟩ := hs.rising_transition_keeps_rows hlow hhigh
  rw [hx, hs.drst, hs.den, hs.dsi]
  simp [hdrst, hden, hdsi]

/-- A tick whose DCLK rises clocks a reference device with the values of that tick. -/
theorem deviceAfter_of_rising {s t : State} {q : List Bool} (h : risingEdge s t = true)
    (hd : s.device = .reference q) : deviceAfter s t = Device.edge s.drst s.den s.dsi (.reference q) := by
  simp [deviceAfter, h, hd]

end Sys2Proof.Machine

open Sys2Proof.Machine

/-- Settles O40: the last stage of a register, a wire where there is none. -/
theorem serialOutIsTheLastStage : Obligations.SerialOutIsTheLastStage := by
  intro s q hd
  rw [State.sample, hd]
  exact ⟨fun h => by simp [List.length_eq_zero_iff.mp h], fun h => Device.serialOut_eq_last_stage h s.dsi⟩

/-- Settles O41: only a tick of the controller can raise DCLK, and then it enters the HI state of the same row. -/
theorem deviceMovesOnlyAtRisingEdges : Obligations.DeviceMovesOnlyAtRisingEdges := by
  intro s t q hs hd h
  obtain rfl | ⟨hdev, hno⟩ := step_controllerTick_or_no_edge h
  · refine ⟨fun hlow hhigh => ⟨hs.presented.inputs_stable_at_rising_edge hlow hhigh, ?_⟩, fun hno => ?_⟩
    · exact deviceAfter_of_rising (s := s.presented) (risingEdge_eq_true.mpr ⟨hlow, hhigh⟩) hd
    · have hrise : risingEdge s.presented s.presented.transition = false :=
        Bool.eq_false_iff.mpr fun hr => hno (risingEdge_eq_true.mp hr)
      exact deviceAfter_of_not_rising hrise hd
  · exact ⟨fun hlow hhigh => absurd ⟨hlow, hhigh⟩ hno, fun _ => hdev.trans hd⟩

end

-- ==== Proofs of the family 30_encoding.md ====
section

namespace Sys2Proof.Machine

/-! ### The decoder (30_encoding.md R50 to R52) -/

theorem decode_of_cmdValid {p : Ports} (h : p.cmdValid = true) : decode p = .ok (decodeOp p.cmdOp p) := by
  simp [decode, h]

theorem decode_of_not_cmdValid {p : Ports} (h : p.cmdValid = false) : decode p = .error .noCommand := by
  simp [decode, h]

theorem decode_of_opcode {p : Ports} {op : BitVec 3} {i : Instr} (hv : p.cmdValid = true) (hi : decodeOp op p = i)
    (hop : p.cmdOp = op) : decode p = .ok i := by
  rw [decode_of_cmdValid hv, hop, hi]

/-- There are eight operation codes. -/
theorem opcode_cases (op : BitVec 3) :
    op = 0b000#3 ∨ op = 0b001#3 ∨ op = 0b010#3 ∨ op = 0b011#3 ∨ op = 0b100#3 ∨ op = 0b101#3 ∨ op = 0b110#3 ∨
      op = 0b111#3 := by
  revert op; decide

/-- Two ticks that agree on the operands the operation reads select the same command (30_encoding.md R52). -/
theorem decodeOp_congr {op : BitVec 3} {p q : Ports}
    (hcodec : op = 0b001#3 ∨ op = 0b010#3 → p.argValue = q.argValue ∧ p.argWidth = q.argWidth)
    (hrec : op = 0b011#3 → p.recIn = q.recIn) (hfb : op = 0b100#3 → p.argFb = q.argFb) :
    decodeOp op p = decodeOp op q := by
  obtain rfl | rfl | rfl | rfl | rfl | rfl | rfl | rfl := opcode_cases op
  · rfl
  · obtain ⟨hv, hw⟩ := hcodec (.inl rfl)
    exact congrArg₂ Instr.enc hv hw
  · obtain ⟨hv, hw⟩ := hcodec (.inr rfl)
    exact congrArg₂ Instr.dec hv hw
  · exact congrArg Instr.pack (hrec rfl)
  · exact congrArg Instr.ldfb (hfb rfl)
  · rfl
  · rfl
  · rfl

/-- A step depends on the ports only through `rst` and the command that they present. -/
theorem step_congr {s t : State} (hr : s.ports.rst = t.ports.rst) (hd : decode s.ports = decode t.ports)
    (hp : s.presented = t.presented) : step s = step t := by
  unfold step
  rw [hr, hd, hp]

/-! ### The elements of a packed record (30_encoding.md R58) -/

section
variable (r : Record) {i : Nat}

theorem getLsbD_pack_dff1 (h : i ≤ 1) : (pack r).getLsbD i = r.dff1.getLsbD (1 - i) := by
  have : i < 56 := by omega
  simp [elem, *]

theorem getLsbD_pack_dff0 (h : 2 ≤ i) (h' : i ≤ 3) : (pack r).getLsbD i = r.dff0.getLsbD (3 - i) := by
  have : i < 56 ∧ ¬ i ≤ 1 := by omega
  simp [elem, *]

theorem getLsbD_pack_feed1_3 : (pack r).getLsbD 4 = r.feed1_3 := by simp [elem]

theorem getLsbD_pack_lut2 (h : 5 ≤ i) (h' : i ≤ 20) : (pack r).getLsbD i = r.lut2.getLsbD (20 - i) := by
  have : i < 56 ∧ ¬ i ≤ 1 ∧ ¬ i ≤ 3 ∧ i ≠ 4 := by omega
  simp [elem, *]

theorem getLsbD_pack_lut1 (h : 21 ≤ i) (h' : i ≤ 36) : (pack r).getLsbD i = r.lut1.getLsbD (36 - i) := by
  have : i < 56 ∧ ¬ i ≤ 1 ∧ ¬ i ≤ 3 ∧ i ≠ 4 ∧ ¬ i ≤ 20 := by omega
  simp [elem, *]

theorem getLsbD_pack_lut0 (h : 37 ≤ i) (h' : i ≤ 52) : (pack r).getLsbD i = r.lut0.getLsbD (52 - i) := by
  have : i < 56 ∧ ¬ i ≤ 1 ∧ ¬ i ≤ 3 ∧ i ≠ 4 ∧ ¬ i ≤ 20 ∧ ¬ i ≤ 36 := by omega
  simp [elem, *]

theorem getLsbD_pack_feed0_3 : (pack r).getLsbD 53 = r.feed0_3 := by simp [elem]

theorem getLsbD_pack_main2 : (pack r).getLsbD 54 = r.main2 := by simp [elem]

theorem getLsbD_pack_main3 : (pack r).getLsbD 55 = r.main3 := by simp [elem]

end

/-! ### The word view (30_encoding.md R59) -/

/-- A frame is the bit reversal of its word view. -/
theorem reverse_wordView (f : Frame) : (wordView f).reverse = f := by
  apply BitVec.eq_of_getLsbD_eq
  intro i hi
  rw [BitVec.getLsbD_reverse, BitVec.getMsbD_eq_getLsbD, getLsbD_wordView, decide_eq_true hi,
    decide_eq_true (by omega : 56 - 1 - i < 56), Bool.true_and, Bool.true_and, (by omega : 55 - (56 - 1 - i) = i)]

/-- The word view of a packed record, field by field from its low end. -/
theorem wordView_pack (r : Record) :
    wordView (pack r) = r.dff1 ++ r.dff0 ++ BitVec.ofBool r.feed1_3 ++ r.lut2 ++ r.lut1 ++ r.lut0 ++
      BitVec.ofBool r.feed0_3 ++ BitVec.ofBool r.main2 ++ BitVec.ofBool r.main3 := by
  apply BitVec.eq_of_getLsbD_eq
  intro j hj
  rw [getLsbD_wordView, decide_eq_true hj, Bool.true_and]
  simp only [BitVec.getLsbD_append]
  split_ifs
  · obtain rfl : j = 0 := by omega
    simpa using getLsbD_pack_main3 r
  · obtain rfl : j = 1 := by omega
    simpa using getLsbD_pack_main2 r
  · obtain rfl : j = 2 := by omega
    simpa using getLsbD_pack_feed0_3 r
  · rw [getLsbD_pack_lut0 r (by omega) (by omega)]
    congr 1; omega
  · rw [getLsbD_pack_lut1 r (by omega) (by omega)]
    congr 1; omega
  · rw [getLsbD_pack_lut2 r (by omega) (by omega)]
    congr 1; omega
  · obtain rfl : j = 51 := by omega
    simpa using getLsbD_pack_feed1_3 r
  · rw [getLsbD_pack_dff0 r (by omega) (by omega)]
    congr 1; omega
  · rw [getLsbD_pack_dff1 r (by omega)]
    congr 1; omega

/-! ### The status word (30_encoding.md R61) -/

/-- Each field of the status word is read back past the fields below it. -/
theorem State.status_fields (s : State) :
    s.status.extractLsb' 0 1 = BitVec.ofBool s.busy ∧
    s.status.extractLsb' 1 1 = BitVec.ofBool s.done ∧
    s.status.extractLsb' 2 3 = s.result.code ∧
    s.status.extractLsb' 5 1 = BitVec.ofBool s.ovf ∧
    s.status.extractLsb' 6 6 = s.failIdx ∧
    s.status.extractLsb' 12 1 = BitVec.ofBool s.failExp ∧
    s.status.extractLsb' 13 1 = BitVec.ofBool s.failObs ∧
    s.status.extractLsb' 14 2 = 0#2 := by
  rw [State.status]
  refine ⟨?_, ?_, ?_, ?_, ?_, ?_, ?_, ?top⟩
  all_goals repeat rw [BitVec.extractLsb'_append_eq_of_le (by decide)]
  case top => exact BitVec.extractLsb'_eq_self
  all_goals exact BitVec.extractLsb'_append_eq_right

/-- The status word of an idle state that reports a pass. -/
theorem State.status_of_pass {s : State} (hf : s.fsm = .idle) (hd : s.done = true)
    (hr : s.report = ⟨.ok, 0, false, false⟩) : s.status = if s.ovf then 0x0026#16 else 0x0006#16 := by
  obtain ⟨hres, hidx, hexp, hobs⟩ := Report.mk.inj hr
  have hb : s.busy = false := by simp [hf]
  rw [State.status, hres, hidx, hexp, hobs, hd, hb]
  cases s.ovf <;> rfl

/-- The last tick of pass 2 completes the RUN (42_protocol.md R97). -/
theorem State.transition_p2Hi_last {s : State} (hf : s.fsm = .p2Hi) (hi : s.idx.toNat = 55) :
    s.transition = (s.complete .ok).enter .idle := by
  rw [State.transition_p2Hi hf, State.tickP2Hi, if_neg (by omega)]

/-- A RUN has cleared the report on acceptance, so a pass leaves it cleared (42_protocol.md R87, R97). -/
theorem StateInv.report_of_last_tick {s : State} (hs : StateInv s) (hf : s.fsm = .p2Hi) (hi : s.idx.toNat = 55) :
    s.controllerTick.report = ⟨.ok, 0, false, false⟩ := by
  obtain ⟨-, hr⟩ := hs.running (by simp [hf])
  obtain ⟨-, hidx, hexp, hobs⟩ := Report.mk.inj hr
  simp [State.report, State.transition_p2Hi_last hf hi, hidx, hexp, hobs]

end Sys2Proof.Machine

open Sys2Proof Sys2Proof.Machine

/-- Settles O4: the step reads the ports only through `rst` and the command they decode to. -/
theorem unreadOperandPortsAreIgnored : Obligations.UnreadOperandPortsAreIgnored := by
  intro s p q l hrst hvalid hop hcodec hrec hfb
  have hdecode : decode p = decode q := by
    unfold decode
    rw [← hvalid, ← hop, decodeOp_congr hcodec hrec hfb]
  exact step_congr hrst hdecode rfl

/-- Settles O28: bit j of the word view is element 55 - j of the frame. -/
theorem wordViewIsTheFieldConcatenation : Obligations.WordViewIsTheFieldConcatenation := by
  have hword : wordView (pack { Record.zero with main3 := true }) = 0x00000000000001#56 := by
    rw [wordView_pack]; rfl
  refine ⟨fun r => ⟨wordView_pack r, (reverse_wordView _).symm⟩, hword, ?_⟩
  rw [← reverse_wordView (pack _), hword]
  decide +kernel

/-- Settles O54: the fields of the word one after the other, and the report of a RUN that passes. -/
theorem statusWordLayout : Obligations.StatusWordLayout := by
  refine ⟨State.status_fields, rfl, fun s t hs hr hf hi h => ?_⟩
  obtain rfl : s.presented.controllerTick = t := Host.Outcome.next.inj ((step_busy (by simp [hf]) hr).symm.trans h)
  have htrans := State.transition_p2Hi_last (s := s.presented) hf hi
  exact State.status_of_pass (by simp [htrans]) (by simp [htrans]) (hs.presented.report_of_last_tick hf hi)

/-- Settles O1: the opcode map, code by code. -/
theorem decodeFollowsTheOpcodeMap : Obligations.DecodeFollowsTheOpcodeMap := by
  intro p
  refine ⟨decode_of_not_cmdValid, fun hv => ?_⟩
  exact ⟨decode_of_opcode hv rfl, decode_of_opcode hv rfl, decode_of_opcode hv rfl, decode_of_opcode hv rfl,
    decode_of_opcode hv rfl, decode_of_opcode hv rfl, decode_of_opcode hv rfl, decode_of_opcode hv rfl⟩

/-- Settles O27: the ranges of Elem, field by field. -/
theorem frameElementsHoldTheirRecordBits : Obligations.FrameElementsHoldTheirRecordBits := fun r =>
  ⟨fun _ => getLsbD_pack_dff1 r, fun _ => getLsbD_pack_dff0 r, getLsbD_pack_feed1_3 r, fun _ => getLsbD_pack_lut2 r,
    fun _ => getLsbD_pack_lut1 r, fun _ => getLsbD_pack_lut0 r, getLsbD_pack_feed0_3 r, getLsbD_pack_main2 r,
    getLsbD_pack_main3 r⟩

end

-- ==== Proofs of the family 40_commands.md ====
section

namespace Sys2Proof.Machine

/-! ### A tick that the host gives port by port (40_commands.md section 1) -/

/-- A busy tick with `rst` = 0 depends on no port: it is the controller's own (40_commands.md R65). -/
theorem step_tick_busy {s : State} {p : Ports} (hf : s.fsm ≠ .idle) (hr : p.rst = false) (l : List HostItem) :
    step { s with script := .tick p :: l } = .next (State.controllerTick { s with script := l }) :=
  step_busy hf hr

theorem State.cmdReady_eq_false (s : State) : s.cmdReady = false ↔ s.fsm ≠ .idle := by
  simp [State.cmdReady]

/-- NOP does what the controller does by itself: nothing in IDLE, its own tick while busy (40_commands.md R67). -/
theorem exec_nop (s : State) : exec .nop s = .next s.controllerTick := by
  by_cases hf : s.fsm = .idle
  · rw [exec, execNop, State.present_idle hf, State.controllerTick_idle hf]
  · exact exec_busy hf .nop

/-- In IDLE the reserved code completes with ERR_CMD (40_commands.md R68). -/
theorem exec_rsvd_idle {s : State} (hf : s.fsm = .idle) :
    exec .rsvd s = .next { s with done := true, result := .errCmd } := by
  rw [exec, execRsvd, State.present_idle hf, State.accept, State.complete]

end Sys2Proof.Machine

open Sys2Proof Sys2Proof.Machine

/-- Settles O7: with or without a command, a busy tick is the controller's own. -/
theorem commandsWhileBusyAreDropped : Obligations.CommandsWhileBusyAreDropped := by
  intro s p l hf hr
  refine ⟨s.cmdReady_eq_false.mpr hf, ?_⟩
  rw [step_tick_busy hf hr, step_tick_busy hf rfl]

/-- Settles O9: NOP is the controller's tick, as is a tick with no command. -/
theorem nopWritesNothing : Obligations.NopWritesNothing := by
  refine ⟨fun s hf => ?_, fun s l => ?_⟩
  · rw [exec_nop, State.controllerTick_idle hf]
  · calc step { s with script := .tick (encode .nop) :: l }
        = exec .nop { s with script := l } := rfl
      _ = .next (State.controllerTick { s with script := l }) := exec_nop _
      _ = step { s with script := .tick Ports.quiet :: l } := rfl

/-- Settles O10: accepted in IDLE with ERR_CMD, dropped while busy; the status word of each end is computed. -/
theorem reservedCodeCompletesWithErrCmd : Obligations.ReservedCodeCompletesWithErrCmd := by
  refine ⟨fun p hv => decode_of_opcode hv rfl, fun s => exec_rsvd_idle, fun s hf => exec_busy hf .rsvd, rfl, ?_⟩
  intro t ht
  obtain rfl : { State.reset with done := true, result := .errCmd } = t :=
    Host.Outcome.next.inj ((exec_rsvd_idle rfl).symm.trans ht)
  rfl

end

-- ==== Proofs of the family 41_codec.md ====
section

namespace Sys2Proof.Machine

/-! ### Encode (41_codec.md R71) -/

theorem getLsbD_encodeSeq_of_lt {v : Bus16} {w k : Nat} (hw : w ≤ 16) (hk : k < w) :
    (encodeSeq v w).getLsbD k = v.getLsbD (w - 1 - k) := by
  simp [hk, hk.trans_le hw]

theorem getLsbD_encodeSeq_of_ge {v : Bus16} {w k : Nat} (hk : w ≤ k) : (encodeSeq v w).getLsbD k = false := by
  simp [getLsbD_encodeSeq, hk.not_gt]

/-- Encode reads only the bits of the value below the width. -/
theorem encodeSeq_congr {v v' : Bus16} {w : Nat} (h : ∀ k, k < w → v'.getLsbD k = v.getLsbD k) :
    encodeSeq v' w = encodeSeq v w := by
  apply bitsOf_congr
  intro k _
  by_cases hk : k < w
  · rw [h (w - 1 - k) (by omega)]
  · simp [hk]

/-- The truncation of a value to its low w bits, bit by bit. -/
theorem getLsbD_ofNat_mod_two_pow (v : Bus16) (w k : Nat) :
    (BitVec.ofNat 16 (v.toNat % 2 ^ w)).getLsbD k = (decide (k < w) && v.getLsbD k) := by
  rw [BitVec.getLsbD_ofNat, Nat.testBit_mod_two_pow, BitVec.testBit_toNat]
  by_cases hk : k < 16
  · simp [hk]
  · simp [BitVec.getLsbD_of_ge v k (by omega)]

theorem encodeSeq_mod (v : Bus16) (w : Nat) :
    encodeSeq (BitVec.ofNat 16 (v.toNat % 2 ^ w)) w = encodeSeq v w :=
  encodeSeq_congr fun k hk => by simp [getLsbD_ofNat_mod_two_pow, hk]

theorem elements_encodeSeq (v : Bus16) {w : Nat} (hw : w ≤ 16) : elements w (encodeSeq v w) = encodeList v w :=
  List.map_congr_left fun _ hk => getLsbD_encodeSeq_of_lt hw (List.mem_range.mp hk)

/-- Encode reverses the low w bits, so twice it is truncation. -/
theorem encodeSeq_encodeSeq (v : Bus16) {w : Nat} (hw : w ≤ 16) :
    encodeSeq (encodeSeq v w) w = BitVec.ofNat 16 (v.toNat % 2 ^ w) := by
  apply BitVec.eq_of_getLsbD_eq
  intro k _
  rw [getLsbD_ofNat_mod_two_pow]
  by_cases hk : k < w
  · rw [getLsbD_encodeSeq_of_lt hw hk, getLsbD_encodeSeq_of_lt hw (by omega), (by omega : w - 1 - (w - 1 - k) = k)]
    simp [hk]
  · simp [getLsbD_encodeSeq_of_ge (not_lt.mp hk), hk]

/-! ### The source's loop (41_codec.md R71) -/

/-- What one round of the loop adds to the sequence: the tested bit, as element k. -/
def encodeRound (v acc : Bus16) (m k : Nat) : Bus16 := if v.getLsbD m then acc ||| BitVec.twoPow 16 k else acc

/-- One round halves the mask to 2^m and tests bit m; the round with m = 0 is the last. -/
theorem encodeLoopFrom_round (v acc : Bus16) (fuel m k : Nat) :
    encodeLoopFrom v (fuel + 1) (2 ^ (m + 1)) k acc =
      if m = 0 then encodeRound v acc m k else encodeLoopFrom v fuel (2 ^ m) (k + 1) (encodeRound v acc m k) := by
  have hhalf : 2 ^ (m + 1) / 2 = 2 ^ m := by rw [pow_succ, Nat.mul_div_cancel _ two_pos]
  have htest : (v.toNat &&& 2 ^ m ≠ 0) = (v.getLsbD m = true) := by
    rw [Nat.and_two_pow, BitVec.testBit_toNat]
    cases v.getLsbD m <;> simp
  simp [encodeLoopFrom, encodeRound, hhalf, htest]

theorem getLsbD_encodeRound (v acc : Bus16) (m k i : Nat) :
    (encodeRound v acc m k).getLsbD i = (acc.getLsbD i || (decide (i < 16) && (decide (i = k) && v.getLsbD m))) := by
  unfold encodeRound
  split
  · by_cases hik : i = k <;> simp [*, Ne.symm]
  · simp [*]

/-- From the mask 2^(m+1), the loop puts bits m to 0 of the value at the elements k to k + m. -/
theorem getLsbD_encodeLoopFrom (v acc : Bus16) {fuel m : Nat} (k i : Nat) (hfuel : m < fuel) :
    (encodeLoopFrom v fuel (2 ^ (m + 1)) k acc).getLsbD i =
      (acc.getLsbD i || (decide (i < 16) && (decide (k ≤ i ∧ i ≤ k + m) && v.getLsbD (k + m - i)))) := by
  induction m generalizing fuel k acc with
  | zero =>
    obtain ⟨fuel, rfl⟩ := Nat.exists_eq_succ_of_ne_zero hfuel.ne_bot
    rw [encodeLoopFrom_round, if_pos rfl, getLsbD_encodeRound]
    by_cases hik : i = k
    · simp [hik]
    · have hout : ¬ (k ≤ i ∧ i ≤ k) := by omega
      simp [hik, hout]
  | succ m ih =>
    obtain ⟨fuel, rfl⟩ := Nat.exists_eq_succ_of_ne_zero hfuel.ne_bot
    rw [encodeLoopFrom_round, if_neg m.succ_ne_zero, ih _ _ (by omega), getLsbD_encodeRound]
    by_cases hik : i = k
    · simp [hik]
    · have hrange : decide (k + 1 ≤ i ∧ i ≤ k + 1 + m) = decide (k ≤ i ∧ i ≤ k + (m + 1)) := by
        rw [decide_eq_decide]; omega
      rw [hrange, (by omega : k + 1 + m - i = k + (m + 1) - i)]
      simp [hik]

theorem encodeLoop_eq_encodeSeq (v : Bus16) {w : Nat} (h : 1 ≤ w) (hw : w ≤ 16) :
    encodeLoop v w = encodeSeq v w := by
  obtain ⟨m, rfl⟩ := Nat.exists_eq_add_of_le' h
  apply BitVec.eq_of_getLsbD_eq
  intro i _
  rw [encodeLoop, getLsbD_encodeLoopFrom v 0 0 i hw, getLsbD_encodeSeq]
  simp [Nat.lt_succ_iff]

/-! ### Decode (41_codec.md R72) -/

theorem decodeSum_eq_sum (q : Bus16) (w : Nat) :
    decodeSum q w = ∑ k ∈ Finset.range w, (q.getLsbD k).toNat * 2 ^ (w - 1 - k) := rfl

/-- One more element doubles the sum so far and puts the element at its low end. -/
theorem decodeSum_succ (q : Bus16) (w : Nat) : decodeSum q (w + 1) = Nat.bit (q.getLsbD w) (decodeSum q w) := by
  rw [decodeSum_eq_sum, decodeSum_eq_sum, Finset.sum_range_succ, Nat.bit_val, Finset.mul_sum]
  congr 1
  · apply Finset.sum_congr rfl
    intro k hk
    have hk := Finset.mem_range.mp hk
    rw [(by omega : w + 1 - 1 - k = w - 1 - k + 1), pow_succ]
    ring
  · simp

theorem testBit_decodeSum (q : Bus16) (w j : Nat) :
    (decodeSum q w).testBit j = (decide (j < w) && q.getLsbD (w - 1 - j)) := by
  induction w generalizing j with
  | zero => simp [decodeSum]
  | succ w ih =>
    rw [decodeSum_succ]
    cases j with
    | zero => simp
    | succ j =>
      rw [Nat.testBit_bit_succ, ih, (by omega : w + 1 - 1 - (j + 1) = w - 1 - j)]
      simp

/-- Decode reverses the low w bits, as Encode does. -/
theorem decodeSeq_eq_encodeSeq (q : Bus16) (w : Nat) : decodeSeq q w = encodeSeq q w := by
  apply BitVec.eq_of_getLsbD_eq
  intro j _
  rw [decodeSeq, BitVec.getLsbD_ofNat, testBit_decodeSum, getLsbD_encodeSeq]

theorem decodeSum_lt (q : Bus16) (w : Nat) : decodeSum q w < 2 ^ w :=
  Nat.lt_pow_two_of_testBit _ fun j hj => by simp [testBit_decodeSum, hj.not_gt]

/-- For a legal width the sum fits the bus (41_codec.md R86). -/
theorem toNat_decodeSeq (q : Bus16) {w : Nat} (hw : w ≤ 16) : (decodeSeq q w).toNat = decodeSum q w :=
  Nat.mod_eq_of_lt ((decodeSum_lt q w).trans_le (Nat.pow_le_pow_right two_pos hw))

theorem toNat_decodeSeq_lt (q : Bus16) {w : Nat} (hw : w ≤ 16) : (decodeSeq q w).toNat < 2 ^ w := by
  rw [toNat_decodeSeq q hw]
  exact decodeSum_lt q w

theorem decodeSeq_congr {q q' : Bus16} {w : Nat} (h : ∀ k, k < w → q'.getLsbD k = q.getLsbD k) :
    decodeSeq q' w = decodeSeq q w := by
  rw [decodeSeq_eq_encodeSeq, decodeSeq_eq_encodeSeq, encodeSeq_congr h]

/-! ### Pack and Unpack (41_codec.md R73, R74, R82) -/

/-- A vector given by the bits of another is that vector. -/
theorem bitsOf_eq {n : Nat} {f : Nat → Bool} {x : BitVec n} (h : ∀ a, a < n → f a = x.getLsbD a) :
    bitsOf n f = x :=
  (bitsOf_congr h).trans (bitsOf_getLsbD x)

theorem bitsOf_two (f : Nat → Bool) : bitsOf 2 f = BitVec.ofBool (f 1) ++ BitVec.ofBool (f 0) := by
  apply bitsOf_eq
  intro a ha
  rw [BitVec.getLsbD_append]
  interval_cases a <;> simp

/-- A field that lies in the elements lo to hi of a frame in reverse is read back from them. -/
theorem bitsOf_reverse {n : Nat} {f : Frame} {x : BitVec n} (lo hi : Nat) (hlen : hi + 1 = lo + n)
    (h : ∀ i, lo ≤ i → i ≤ hi → f.getLsbD i = x.getLsbD (hi - i)) :
    (bitsOf n fun a => f.getLsbD (hi - a)) = x :=
  bitsOf_eq fun a _ => by rw [h (hi - a) (by omega) (by omega), (by omega : hi - (hi - a) = a)]

theorem unpack_pack (r : Record) : unpack (pack r) = r := by
  have hdff1 := bitsOf_reverse 0 1 rfl fun _ _ => getLsbD_pack_dff1 r
  have hdff0 := bitsOf_reverse 2 3 rfl fun _ => getLsbD_pack_dff0 r
  have hlut2 := bitsOf_reverse 5 20 rfl fun _ => getLsbD_pack_lut2 r
  have hlut1 := bitsOf_reverse 21 36 rfl fun _ => getLsbD_pack_lut1 r
  have hlut0 := bitsOf_reverse 37 52 rfl fun _ => getLsbD_pack_lut0 r
  rw [unpack, hdff1, hdff0, hlut2, hlut1, hlut0, getLsbD_pack_feed1_3, getLsbD_pack_feed0_3, getLsbD_pack_main2,
    getLsbD_pack_main3]

section
variable (f : Frame) {a : Nat}

theorem getLsbD_unpack_dff1 (h : a < 2) : (unpack f).dff1.getLsbD a = f.getLsbD (1 - a) := by
  rw [unpack, getLsbD_bitsOf, decide_eq_true h, Bool.true_and]

theorem getLsbD_unpack_dff0 (h : a < 2) : (unpack f).dff0.getLsbD a = f.getLsbD (3 - a) := by
  rw [unpack, getLsbD_bitsOf, decide_eq_true h, Bool.true_and]

theorem getLsbD_unpack_lut2 (h : a < 16) : (unpack f).lut2.getLsbD a = f.getLsbD (20 - a) := by
  rw [unpack, getLsbD_bitsOf, decide_eq_true h, Bool.true_and]

theorem getLsbD_unpack_lut1 (h : a < 16) : (unpack f).lut1.getLsbD a = f.getLsbD (36 - a) := by
  rw [unpack, getLsbD_bitsOf, decide_eq_true h, Bool.true_and]

theorem getLsbD_unpack_lut0 (h : a < 16) : (unpack f).lut0.getLsbD a = f.getLsbD (52 - a) := by
  rw [unpack, getLsbD_bitsOf, decide_eq_true h, Bool.true_and]

theorem elem_unpack {i : Nat} (hi : i < 56) : elem (unpack f) i = f.getLsbD i := by
  unfold elem
  split_ifs
  · rw [getLsbD_unpack_dff1 f (by omega), (by omega : 1 - (1 - i) = i)]
  · rw [getLsbD_unpack_dff0 f (by omega), (by omega : 3 - (3 - i) = i)]
  · obtain rfl : i = 4 := by omega
    rfl
  · rw [getLsbD_unpack_lut2 f (by omega), (by omega : 20 - (20 - i) = i)]
  · rw [getLsbD_unpack_lut1 f (by omega), (by omega : 36 - (36 - i) = i)]
  · rw [getLsbD_unpack_lut0 f (by omega), (by omega : 52 - (52 - i) = i)]
  · obtain rfl : i = 53 := by omega
    rfl
  · obtain rfl : i = 54 := by omega
    rfl
  · obtain rfl : i = 55 := by omega
    rfl

theorem pack_unpack : pack (unpack f) = f := bitsOf_eq fun _ => elem_unpack f

end

theorem pack_zero : pack Record.zero = 0 := by
  rw [(by decide : Record.zero = unpack 0), pack_unpack]

theorem pack_main3 : pack { Record.zero with main3 := true } = 0x80000000000000#56 := by
  rw [(by decide : { Record.zero with main3 := true } = unpack 0x80000000000000#56), pack_unpack]

/-! ### Pack as field encodings (41_codec.md R83) -/

/-- The MSB-first sequence of a concatenation is the concatenation of the sequences. -/
theorem encodeList_append {m n : Nat} (x : BitVec m) (y : BitVec n) :
    encodeList (x ++ y) (m + n) = encodeList x m ++ encodeList y n := by
  simp only [encodeList, List.range_add, List.map_append, List.map_map]
  congr 1
  · apply List.map_congr_left
    intro k hk
    have hk := List.mem_range.mp hk
    rw [BitVec.getLsbD_append, if_neg (by omega), (by omega : m + n - 1 - k - n = m - 1 - k)]
  · apply List.map_congr_left
    intro k hk
    have hk := List.mem_range.mp hk
    simp only [Function.comp_apply]
    rw [BitVec.getLsbD_append, if_pos (by omega), (by omega : m + n - 1 - (m + k) = n - 1 - k)]

/-- The elements of a frame are the MSB-first sequence of its word view. -/
theorem elements_eq_encodeList_wordView (f : Frame) : elements 56 f = encodeList (wordView f) 56 := by
  apply List.map_congr_left
  intro k hk
  have hk := List.mem_range.mp hk
  rw [getLsbD_wordView, decide_eq_true (by omega), Bool.true_and, (by omega : 55 - (56 - 1 - k) = k)]

theorem elements_pack (r : Record) :
    elements 56 (pack r) =
      encodeList r.dff1 2 ++ encodeList r.dff0 2 ++ encodeList (BitVec.ofBool r.feed1_3) 1 ++
      encodeList r.lut2 16 ++ encodeList r.lut1 16 ++ encodeList r.lut0 16 ++
      encodeList (BitVec.ofBool r.feed0_3) 1 ++ encodeList (BitVec.ofBool r.main2) 1 ++
      encodeList (BitVec.ofBool r.main3) 1 := by
  rw [elements_eq_encodeList_wordView, wordView_pack]
  simp only [← encodeList_append]

/-! ### Each field's elements (41_codec.md R84) -/

/-- Two records that agree on the field of element i agree on the element. A field that an application does not name
is the same in both records. -/
theorem getLsbD_pack_congr {r r' : Record} {i : Nat}
    (dff1 : i < 2 → r.dff1 = r'.dff1 := by intros; rfl)
    (dff0 : 2 ≤ i → i < 4 → r.dff0 = r'.dff0 := by intros; rfl)
    (feed1_3 : i = 4 → r.feed1_3 = r'.feed1_3 := by intros; rfl)
    (lut2 : 5 ≤ i → i < 21 → r.lut2 = r'.lut2 := by intros; rfl)
    (lut1 : 21 ≤ i → i < 37 → r.lut1 = r'.lut1 := by intros; rfl)
    (lut0 : 37 ≤ i → i < 53 → r.lut0 = r'.lut0 := by intros; rfl)
    (feed0_3 : i = 53 → r.feed0_3 = r'.feed0_3 := by intros; rfl)
    (main2 : i = 54 → r.main2 = r'.main2 := by intros; rfl)
    (main3 : i = 55 → r.main3 = r'.main3 := by intros; rfl) :
    (pack r).getLsbD i = (pack r').getLsbD i := by
  by_cases hi : i < 56
  · simp only [getLsbD_pack, elem]
    split_ifs
    · rw [dff1 (by omega)]
    · rw [dff0 (by omega) (by omega)]
    · rw [feed1_3 (by omega)]
    · rw [lut2 (by omega) (by omega)]
    · rw [lut1 (by omega) (by omega)]
    · rw [lut0 (by omega) (by omega)]
    · rw [feed0_3 (by omega)]
    · rw [main2 (by omega)]
    · rw [main3 (by omega)]
  · rw [BitVec.getLsbD_of_ge _ _ (by omega), BitVec.getLsbD_of_ge _ _ (by omega)]

/-- Where elements lo to hi hold a LUT in reverse, flipping its entry a flips element hi - a. -/
theorem pack_flip_entry {r r' : Record} {x : Bus16} {lo hi a : Nat} (hlen : hi = lo + 15) (hhi : hi < 56)
    (ha : a < 16) (hin : ∀ i, lo ≤ i → i ≤ hi → (pack r).getLsbD i = x.getLsbD (hi - i))
    (hin' : ∀ i, lo ≤ i → i ≤ hi → (pack r').getLsbD i = (x ^^^ BitVec.twoPow 16 a).getLsbD (hi - i))
    (hout : ∀ i, i < lo ∨ hi < i → (pack r').getLsbD i = (pack r).getLsbD i) :
    pack r' = pack r ^^^ BitVec.twoPow 56 (hi - a) := by
  apply BitVec.eq_of_getLsbD_eq
  intro i hi56
  rw [BitVec.getLsbD_xor, BitVec.getLsbD_twoPow]
  by_cases hr : lo ≤ i ∧ i ≤ hi
  · rw [hin i hr.1 hr.2, hin' i hr.1 hr.2, BitVec.getLsbD_xor, BitVec.getLsbD_twoPow]
    congr 1
    simp only [← Bool.decide_and, decide_eq_decide]
    omega
  · have hne : hi - a ≠ i := by omega
    simp [hout i (by omega), hne]

/-! ### The codec commands in IDLE (41_codec.md R75 to R79) -/

section
variable {s : State} (hf : s.fsm = .idle)
include hf

theorem exec_enc_idle_legal (v : Bus16) {w : Width} (hw : 1 ≤ w.toNat ∧ w.toNat ≤ 16) :
    exec (.enc v w) s = .next { s with
      seq := encodeSeq v w.toNat, len := w, ovf := decide (2 ^ w.toNat ≤ v.toNat), result := .ok, done := true } := by
  rw [exec, execEnc, State.present_idle hf, if_pos ((widthLegal_iff w).mpr hw), encodeOverflow_eq, State.accept,
    State.complete]

theorem exec_enc_idle_illegal (v : Bus16) {w : Width} (hw : ¬ (1 ≤ w.toNat ∧ w.toNat ≤ 16)) :
    exec (.enc v w) s = .next { s with result := .errWidth, done := true } := by
  rw [exec, execEnc, State.present_idle hf, if_neg (mt (widthLegal_iff w).mp hw), State.accept, State.complete]

theorem exec_dec_idle_legal (q : Bus16) {w : Width} (hw : 1 ≤ w.toNat ∧ w.toNat ≤ 16) :
    exec (.dec q w) s = .next { s with val := decodeSeq q w.toNat, result := .ok, done := true } := by
  rw [exec, execDec, State.present_idle hf, if_pos ((widthLegal_iff w).mpr hw), State.accept, State.complete]

theorem exec_dec_idle_illegal (q : Bus16) {w : Width} (hw : ¬ (1 ≤ w.toNat ∧ w.toNat ≤ 16)) :
    exec (.dec q w) s = .next { s with result := .errWidth, done := true } := by
  rw [exec, execDec, State.present_idle hf, if_neg (mt (widthLegal_iff w).mp hw), State.accept, State.complete]

theorem exec_pack_idle (r : Record) :
    exec (.pack r) s = .next { s with fb := pack r, result := .ok, done := true } := by
  rw [exec, execPack, State.present_idle hf, State.accept, State.complete]

theorem exec_ldfb_idle (f : Frame) : exec (.ldfb f) s = .next { s with fb := f, result := .ok, done := true } := by
  rw [exec, execLdfb, State.present_idle hf, State.accept, State.complete]

theorem exec_unpk_idle : exec .unpk s = .next { s with recReg := unpack s.fb, result := .ok, done := true } := by
  rw [exec, execUnpk, State.present_idle hf, State.accept, State.complete]

end

end Sys2Proof.Machine

open Sys2Proof Sys2Proof.Machine

/-- Settles O20: the closed form of Encode bit by bit, and the loop round by round. -/
theorem encodeEmitsMsbFirst : Obligations.EncodeEmitsMsbFirst := fun v w h hw =>
  ⟨fun _ => getLsbD_encodeSeq_of_lt hw, fun _ => getLsbD_encodeSeq_of_ge, elements_encodeSeq v hw,
    length_encodeList v w, encodeLoop_eq_encodeSeq v h hw, (encodeSeq_mod v w).symm⟩

/-- Settles O21: the sum fits the bus, and its bits are the elements in reverse. -/
theorem decodeIsTheWeightedSum : Obligations.DecodeIsTheWeightedSum := by
  intro q w _ hw
  refine ⟨(toNat_decodeSeq q hw).trans (decodeSum_eq_sum q w), fun k hk => ?_, toNat_decodeSeq_lt q hw,
    fun _ => decodeSeq_congr⟩
  rw [decodeSeq_eq_encodeSeq, getLsbD_encodeSeq_of_lt hw (by omega), (by omega : w - 1 - (w - 1 - k) = k)]

/-- Settles O22: both functions reverse the low w bits. -/
theorem decodeAfterEncodeTruncates : Obligations.DecodeAfterEncodeTruncates := by
  intro v w _ hw
  have hround : (decodeSeq (encodeSeq v w) w).toNat = v.toNat % 2 ^ w := by
    rw [decodeSeq_eq_encodeSeq, encodeSeq_encodeSeq v hw, BitVec.toNat_ofNat]
    exact Nat.mod_eq_of_lt ((Nat.mod_le _ _).trans_lt v.isLt)
  exact ⟨hround, fun hv => BitVec.eq_of_toNat_eq (hround.trans (Nat.mod_eq_of_lt hv))⟩

/-- Settles O23: both functions reverse the low w bits, and the mask 2^w - 1 keeps those. -/
theorem encodeAfterDecodeMasks : Obligations.EncodeAfterDecodeMasks := by
  intro q w _ hw
  rw [decodeSeq_eq_encodeSeq, encodeSeq_encodeSeq q hw, ← Nat.and_two_pow_sub_one_eq_mod, BitVec.ofNat_and,
    BitVec.ofNat_toNat, BitVec.setWidth_eq]

/-- Settles O24: the two inverse laws, and what they say of the functions. -/
theorem packAndUnpackAreInverse : Obligations.PackAndUnpackAreInverse :=
  ⟨unpack_pack, pack_unpack, Function.bijective_iff_has_inverse.mpr ⟨unpack, unpack_pack, pack_unpack⟩,
    Function.bijective_iff_has_inverse.mpr ⟨pack, pack_unpack, unpack_pack⟩⟩

/-- Settles O25: the elements of a frame are its word view, MSB first, which is the concatenation of the fields. -/
theorem packConcatenatesFieldEncodings : Obligations.PackConcatenatesFieldEncodings :=
  ⟨fun r => ⟨elements_pack r, length_elements 56 _⟩, fun v w _ _ => length_encodeList v w⟩

/-- Settles O26: an element reads one field, and a LUT lies in its range in reverse. -/
theorem fieldsAreLocalInTheFrame : Obligations.FieldsAreLocalInTheFrame := by
  have hlut2 (r : Record) (x : Bus16) (i : Nat) (h : i < 5 ∨ 21 ≤ i) :
      (pack { r with lut2 := x }).getLsbD i = (pack r).getLsbD i := getLsbD_pack_congr (lut2 := by omega)
  have hlut1 (r : Record) (x : Bus16) (i : Nat) (h : i < 21 ∨ 37 ≤ i) :
      (pack { r with lut1 := x }).getLsbD i = (pack r).getLsbD i := getLsbD_pack_congr (lut1 := by omega)
  have hlut0 (r : Record) (x : Bus16) (i : Nat) (h : i < 37 ∨ 53 ≤ i) :
      (pack { r with lut0 := x }).getLsbD i = (pack r).getLsbD i := getLsbD_pack_congr (lut0 := by omega)
  refine ⟨fun r x i h => getLsbD_pack_congr (dff1 := by omega), fun r x i h => getLsbD_pack_congr (dff0 := by omega),
    fun r x i h => getLsbD_pack_congr (feed1_3 := by omega), hlut2, hlut1, hlut0,
    fun r x i h => getLsbD_pack_congr (feed0_3 := by omega), fun r x i h => getLsbD_pack_congr (main2 := by omega),
    fun r x i h => getLsbD_pack_congr (main3 := by omega), fun r a ha => ⟨?_, ?_, ?_⟩⟩
  · exact pack_flip_entry (lo := 5) rfl (by decide) ha (fun _ => getLsbD_pack_lut2 r) (fun _ => getLsbD_pack_lut2 _)
      (hlut2 r _)
  · exact pack_flip_entry (lo := 21) rfl (by decide) ha (fun _ => getLsbD_pack_lut1 r) (fun _ => getLsbD_pack_lut1 _)
      (hlut1 r _)
  · exact pack_flip_entry (lo := 37) rfl (by decide) ha (fun _ => getLsbD_pack_lut0 r) (fun _ => getLsbD_pack_lut0 _)
      (hlut0 r _)

/-- Settles O11: the next state of each kind of width, and the corners of Encode. -/
theorem encWritesSequenceLengthAndOverflow : Obligations.EncWritesSequenceLengthAndOverflow := by
  intro s v w hf
  refine ⟨exec_enc_idle_legal hf v, exec_enc_idle_illegal hf v, (encodeOverflow_eq v w.toNat).symm, fun hw => ?_,
    fun hv => ?_, (encodeSeq_mod v w.toNat).symm, fun hw => ?_, fun _ => getLsbD_encodeSeq_of_ge, by decide,
    by decide⟩
  · rw [hw]
    exact v.isLt.not_ge
  · subst hv
    exact ⟨bitsOf_eq fun k _ => by simp, by simp⟩
  · rw [hw, getLsbD_encodeSeq_of_lt (by decide) (by decide)]

/-- Settles O12: the next state of each kind of width, and what VAL depends on. -/
theorem decWritesTheValue : Obligations.DecWritesTheValue := by
  intro s q w hf
  exact ⟨fun hw => ⟨exec_dec_idle_legal hf q hw, toNat_decodeSeq_lt q hw.2, fun _ => decodeSeq_congr⟩,
    exec_dec_idle_illegal hf q, by decide, by decide, by decide⟩

/-- Settles O13: the frame is Pack of the record, and Pack reaches every frame. -/
theorem packWritesTheFrame : Obligations.PackWritesTheFrame := by
  refine ⟨fun s r hf => ⟨pack r, exec_pack_idle hf r, fun i hi => ?_, ?_, ?_⟩, fun s f hf => ⟨unpack f, ?_⟩⟩
  · rw [getLsbD_pack, decide_eq_true hi, Bool.true_and]
  · rintro rfl
    exact pack_zero
  · rintro rfl
    exact pack_main3
  · rw [exec_pack_idle hf, pack_unpack]

/-- Settles O14: LDFB of a packed record and PACK of the record have the same next state. -/
theorem ldfbWritesTheOperand : Obligations.LdfbWritesTheOperand := by
  intro s hf
  refine ⟨exec_ldfb_idle hf, fun r => by rw [exec_ldfb_idle hf, exec_pack_idle hf], fun i => ?_⟩
  rw [(by decide : 0x80000000000001#56 = BitVec.twoPow 56 0 ||| BitVec.twoPow 56 55), BitVec.getLsbD_or,
    BitVec.getLsbD_twoPow, BitVec.getLsbD_twoPow]
  simp [eq_comm]

/-- Settles O15: PACK leaves the state idle with FB = Pack(r), and Unpack inverts Pack. -/
theorem unpkWritesTheRecord : Obligations.UnpkWritesTheRecord := by
  intro s hf
  refine ⟨exec_unpk_idle hf, fun r t u ht hu => ?_, by decide⟩
  obtain rfl := Host.Outcome.next.inj ((exec_pack_idle hf r).symm.trans ht)
  have hidle : State.fsm { s with fb := pack r, result := .ok, done := true } = .idle := hf
  obtain rfl := Host.Outcome.next.inj ((exec_unpk_idle hidle).symm.trans hu)
  exact ⟨unpack_pack r, rfl⟩

/-- Settles O29: Unpack field by field. -/
theorem unpackReadsEveryRecordBit : Obligations.UnpackReadsEveryRecordBit := by
  intro f
  refine ⟨bitsOf_two fun a => f.getLsbD (1 - a), bitsOf_two fun a => f.getLsbD (3 - a), rfl, fun a ha => ?_, rfl, rfl,
    rfl⟩
  have ha := Nat.lt_succ_of_le ha
  exact ⟨getLsbD_unpack_lut2 f ha, getLsbD_unpack_lut1 f ha, getLsbD_unpack_lut0 f ha⟩

end

-- ==== Proofs of the family 42_protocol.md ====
section

namespace Sys2Proof.Machine

/-! ### The branches of the controller's transitions (42_protocol.md R91, R94 to R97) -/

section
variable {s : State}

theorem State.transition_enHi_first (hf : s.fsm = .enHi) (he : s.ecnt = false) :
    s.transition = State.enter { s with ecnt := true } .enLo := by
  rw [s.transition_enHi hf, tickEnHi, if_neg (by simp [he])]

theorem State.transition_enHi_second (hf : s.fsm = .enHi) (he : s.ecnt = true) : s.transition = s.enter .rstLo := by
  rw [s.transition_enHi hf, tickEnHi, if_pos he]

theorem State.transition_p1Lo_fail (hf : s.fsm = .p1Lo) (hc : s.sample ≠ false) :
    s.transition = s.raiseFail .errP1 s.idx false s.sample := by
  rw [s.transition_p1Lo hf, tickP1Lo, if_pos (by simpa using hc)]

theorem State.transition_p1Lo_pass (hf : s.fsm = .p1Lo) (hc : s.sample = false) : s.transition = s.enter .p1Hi := by
  rw [s.transition_p1Lo hf, tickP1Lo, if_neg (by simp [hc])]

theorem State.transition_p1Hi_next (hf : s.fsm = .p1Hi) (hi : s.idx.toNat < 55) :
    s.transition = State.enter { s with idx := s.idx + 1 } .p1Lo := by
  rw [s.transition_p1Hi hf, tickP1Hi, if_pos hi]

theorem State.transition_p1Hi_last (hf : s.fsm = .p1Hi) (hi : s.idx.toNat = 55) :
    s.transition = State.enter { s with idx := 0 } .p2Lo := by
  rw [s.transition_p1Hi hf, tickP1Hi, if_neg (by omega)]

theorem State.transition_p2Lo_fail (hf : s.fsm = .p2Lo) (hc : s.sample ≠ s.element) :
    s.transition = s.raiseFail .errP2 s.idx s.element s.sample := by
  rw [s.transition_p2Lo hf, tickP2Lo, if_pos hc]

theorem State.transition_p2Lo_pass (hf : s.fsm = .p2Lo) (hc : s.sample = s.element) :
    s.transition = s.enter .p2Hi := by
  rw [s.transition_p2Lo hf, tickP2Lo, if_neg (not_not_intro hc)]

theorem State.transition_p2Hi_next (hf : s.fsm = .p2Hi) (hi : s.idx.toNat < 55) :
    s.transition = State.enter { s with idx := s.idx + 1 } .p2Lo := by
  rw [s.transition_p2Hi hf, tickP2Hi, if_pos hi]

end

/-- The next index, where there is one. -/
theorem Idx.toNat_succ {i : Idx} (h : i.toNat < 55) : (i + 1).toNat = i.toNat + 1 := by
  have := i.isLt
  bv_omega

/-! ### A busy tick (20_memory.md R43, 40_commands.md R65) -/

theorem risingEdge_of_falling {s t : State} (h : t.dclk = false) : risingEdge s t = false := by
  simp [risingEdge, h]

theorem risingEdge_of_held {s t : State} (h : t.dclk = s.dclk) : risingEdge s t = false := by
  simp [risingEdge, h]

/-- A busy tick with `rst` = 0 is the controller's transition, and the device then. -/
theorem step_of_transition {s t : State} (hf : s.fsm ≠ .idle) (hr : s.ports.rst = false)
    (ht : s.presented.transition = t) : step s = .next { t with device := deviceAfter s t } := by
  subst ht
  exact step_busy hf hr

/-- A tick that neither samples nor raises DCLK leaves any device as it is. -/
theorem deviceAfter_of_quiet {s t : State} (hs : s.fsm.samples = false) (hr : risingEdge s t = false) :
    deviceAfter s t = s.device := by
  simp [deviceAfter, hs, hr]

/-- A busy tick with `rst` = 0 that neither samples nor raises DCLK is the controller's transition alone. -/
theorem step_of_quiet_transition {s t : State} (hr : s.ports.rst = false)
    (ht : s.presented.transition = t) (hf : s.fsm ≠ .idle) (hs : s.fsm.samples = false)
    (hclk : t.dclk = false ∨ t.dclk = s.dclk) (hdev : t.device = s.device) : step s = .next t := by
  have hrise : risingEdge s t = false := hclk.elim risingEdge_of_falling risingEdge_of_held
  rw [step_of_transition hf hr ht, deviceAfter_of_quiet hs hrise, ← hdev]

/-- In the invariant, DCLK is 0 in a LO state, so that a tick into a HI state makes a rising edge. -/
theorem StateInv.risingEdge_of_row {s t : State} (hs : StateInv s) (hlo : s.fsm.dclkRow s.dclk = false)
    (hhi : t.dclk = true) : risingEdge s t = true :=
  risingEdge_eq_true.mpr ⟨hs.dclk.trans hlo, hhi⟩

/-! ### A tick in IDLE (42_protocol.md R98) -/

/-- An accepted command other than RUN leaves the controller and the device side alone. -/
theorem exec_idle_quiet {s : State} {i : Instr} (hf : s.fsm = .idle) (hi : i ≠ .run) :
    ∃ t, exec i s = .next t ∧ t.fsm = .idle ∧ (t.dclk, t.drst, t.den, t.dsi) = (s.dclk, s.drst, s.den, s.dsi) := by
  cases i with
  | nop => exact ⟨s, by rw [exec_nop, State.controllerTick_idle hf], hf, rfl⟩
  | enc v w =>
    by_cases hw : 1 ≤ w.toNat ∧ w.toNat ≤ 16
    · exact ⟨_, exec_enc_idle_legal hf v hw, hf, rfl⟩
    · exact ⟨_, exec_enc_idle_illegal hf v hw, hf, rfl⟩
  | dec q w =>
    by_cases hw : 1 ≤ w.toNat ∧ w.toNat ≤ 16
    · exact ⟨_, exec_dec_idle_legal hf q hw, hf, rfl⟩
    · exact ⟨_, exec_dec_idle_illegal hf q hw, hf, rfl⟩
  | pack r => exact ⟨_, exec_pack_idle hf r, hf, rfl⟩
  | ldfb f => exact ⟨_, exec_ldfb_idle hf f, hf, rfl⟩
  | unpk => exact ⟨_, exec_unpk_idle hf, hf, rfl⟩
  | run => exact absurd rfl hi
  | rsvd => exact ⟨_, exec_rsvd_idle hf, hf, rfl⟩

/-- With `rst` = 0, a tick that reads as a command runs it. -/
theorem step_of_decode {s : State} {i : Instr} (hr : s.ports.rst = false) (hd : decode s.ports = .ok i) :
    step s = exec i s.presented := by
  simp [step, hr, hd]

/-- With `rst` = 0, a tick with no command is the controller's own. -/
theorem step_of_no_command {s : State} (hr : s.ports.rst = false) (hd : decode s.ports = .error .noCommand) :
    step s = .next s.presented.controllerTick := by
  simp [step, hr, hd]

/-- The registers in the first tick of an accepted RUN (42_protocol.md R87). -/
def State.acceptRun (s : State) : State :=
  State.enter
    { s.accept with result := .none, failIdx := 0, failExp := false, failObs := false, idx := 0, ecnt := false } .enLo

theorem exec_run_idle {s : State} (hf : s.fsm = .idle) : exec .run s = .next s.acceptRun := by
  rw [exec, execRun, State.present_idle hf, State.acceptRun]

theorem step_accept_run {s : State} (h : Accepts s .run) : step s = .next s.presented.acceptRun := by
  obtain ⟨hr, hd, hf⟩ := h
  rw [step_of_decode hr hd, exec_run_idle (by simpa using hf)]

/-- Without an accepted RUN, a tick in IDLE leaves the controller and the device side alone. -/
theorem step_idle_quiet {s : State} (hr : s.ports.rst = false) (hf : s.fsm = .idle) (hno : ¬ Accepts s .run) :
    ∃ t, step s = .next t ∧ t.fsm = .idle ∧ (t.dclk, t.drst, t.den, t.dsi) = (s.dclk, s.drst, s.den, s.dsi) := by
  cases hd : decode s.ports with
  | error e =>
    rw [step_of_no_command hr hd, State.controllerTick_idle (by simpa using hf)]
    exact ⟨_, rfl, hf, rfl⟩
  | ok i =>
    rw [step_of_decode hr hd]
    exact exec_idle_quiet (s := s.presented) hf fun hi => hno ⟨hr, hi ▸ hd, hf⟩

/-! ### The device clock over a boundary (42_protocol.md R99) -/

/-- The four transitions that end a *_LO tick with a rising edge: from which state, into which. -/
def Fsm.clocksInto (x y : Fsm) : Prop :=
  (x = .enLo ∧ y = .enHi) ∨ (x = .rstLo ∧ y = .rstHi) ∨ (x = .p1Lo ∧ y = .p1Hi) ∨ (x = .p2Lo ∧ y = .p2Hi)

/-- Such a transition keeps the other device inputs (42_protocol.md R89). -/
theorem Fsm.clocksInto.rows {x y : Fsm} (h : x.clocksInto y) :
    (∀ b, x.dclkRow b = false ∧ y.dclkRow b = true) ∧ y.drstRow = x.drstRow ∧ y.denRow = x.denRow ∧
    ∀ b, y.dsiRow b = x.dsiRow b := by
  obtain ⟨rfl, rfl⟩ | ⟨rfl, rfl⟩ | ⟨rfl, rfl⟩ | ⟨rfl, rfl⟩ := h <;> simp

/-- What a busy tick does to DCLK: a LO state enters its HI state, a HI state enters a LO state, or IDLE is entered
with DCLK held. -/
theorem State.transition_boundary {s : State} (hf : s.fsm ≠ .idle) :
    (∃ y, s.fsm.clocksInto y ∧ s.transition = s.enter y) ∨
    (s.fsm.dclkRow false = true ∧ s.transition.fsm ≠ .idle ∧ s.transition.dclk = false) ∨
    (s.transition.fsm = .idle ∧ s.transition.dclk = s.dclk) := by
  cases h : s.fsm with
  | idle => exact absurd h hf
  | enLo => exact .inl ⟨.enHi, by simp [Fsm.clocksInto], s.transition_enLo h⟩
  | rstLo => exact .inl ⟨.rstHi, by simp [Fsm.clocksInto], s.transition_rstLo h⟩
  | p1Lo =>
    by_cases hc : s.sample = false
    · exact .inl ⟨.p1Hi, by simp [Fsm.clocksInto], s.transition_p1Lo_pass h hc⟩
    · exact .inr (.inr (by simp [s.transition_p1Lo_fail h hc]))
  | p2Lo =>
    by_cases hc : s.sample = s.element
    · exact .inl ⟨.p2Hi, by simp [Fsm.clocksInto], s.transition_p2Lo_pass h hc⟩
    · exact .inr (.inr (by simp [s.transition_p2Lo_fail h hc]))
  | enHi =>
    rw [s.transition_enHi h, tickEnHi]
    split <;> exact .inr (.inl (by simp))
  | rstHi => exact .inr (.inl (by simp [s.transition_rstHi h, tickRstHi]))
  | p1Hi =>
    rw [s.transition_p1Hi h, tickP1Hi]
    split <;> exact .inr (.inl (by simp))
  | p2Hi =>
    rw [s.transition_p2Hi h, tickP2Hi]
    split
    · exact .inr (.inl (by simp))
    · exact .inr (.inr (by simp))

/-- The three kinds of boundary: the controller clocks the device, DCLK falls or stays low on the way to another state
or to a block reset, or IDLE is entered or kept with DCLK held. -/
theorem step_boundary {s t : State} (h : step s = .next t) :
    (s.ports.rst = false ∧ s.fsm.clocksInto t.fsm ∧
      t = { s.enter t.fsm with device := t.device, script := t.script }) ∨
    (t.dclk = false ∧ ¬ s.fsm.clocksInto t.fsm ∧ (s.ports.rst = false → t.fsm ≠ .idle)) ∨
    (s.ports.rst = false ∧ t.fsm = .idle ∧ t.dclk = s.dclk) := by
  by_cases hr : s.ports.rst = true
  · obtain ⟨-, rfl⟩ | ⟨hr', -⟩ | ⟨hr', -⟩ := step_cases h
    · exact .inr (.inl ⟨rfl, fun hc => Bool.false_ne_true (hc.rows.1 false).2, by simp [hr]⟩)
    all_goals simp [hr] at hr'
  have hr : s.ports.rst = false := by simpa using hr
  by_cases hf : s.fsm = .idle
  · by_cases hrun : Accepts s .run
    · obtain rfl := Host.Outcome.next.inj ((step_accept_run hrun).symm.trans h)
      exact .inr (.inl ⟨rfl, fun hc => Bool.false_ne_true (hc.rows.1 false).2, fun _ => Fsm.noConfusion⟩)
    · obtain ⟨t', ht', htf, hout⟩ := step_idle_quiet hr hf hrun
      obtain rfl := Host.Outcome.next.inj (ht'.symm.trans h)
      exact .inr (.inr ⟨hr, htf, congrArg Prod.fst hout⟩)
  · obtain rfl := Host.Outcome.next.inj ((step_busy hf hr).symm.trans h)
    obtain ⟨y, hy, ht⟩ | ⟨hhi, hbusy, hclk⟩ | ⟨hidle, hclk⟩ := State.transition_boundary (s := s.presented) hf
    · have hfsm : s.presented.controllerTick.fsm = y := congrArg State.fsm ht
      refine .inl ⟨hr, hfsm ▸ hy, ?_⟩
      rw [hfsm, State.controllerTick, ht]
      rfl
    · exact .inr (.inl ⟨hclk, fun hc => absurd hhi (by simp [(hc.rows.1 false).1]), fun _ => hbusy⟩)
    · exact .inr (.inr ⟨hr, hidle, hclk⟩)

/-! ### Verify as a search over the 112 data edges (42_protocol.md R101) -/

/-- The bit that the check before data edge e wants: 0 in pass 1, the element itself in pass 2. -/
def expectedBit (f : Frame) (e : Nat) : Bool := if e < 56 then false else f.getLsbD (e - 56)

theorem expectedBit_pass1 (f : Frame) {e : Nat} (h : e < 56) : expectedBit f e = false := if_pos h

theorem expectedBit_pass2 (f : Frame) (i : Nat) : expectedBit f (56 + i) = f.getLsbD i := by simp [expectedBit]

/-- What Fail reports at data edge e, when the sample there is `so`. -/
def failReport (f : Frame) (e : Nat) (so : Bool) : Report :=
  ⟨if e < 56 then .errP1 else .errP2, BitVec.ofNat 6 (e % 56), expectedBit f e, so⟩

theorem failReport_pass1 (f : Frame) {e : Nat} (h : e < 56) (so : Bool) :
    failReport f e so = ⟨.errP1, BitVec.ofNat 6 e, false, so⟩ := by
  rw [failReport, if_pos h, Nat.mod_eq_of_lt h, expectedBit_pass1 f h]

theorem failReport_pass2 (f : Frame) {i : Nat} (h : i < 56) (so : Bool) :
    failReport f (56 + i) so = ⟨.errP2, BitVec.ofNat 6 i, f.getLsbD i, so⟩ := by
  rw [failReport, if_neg (by omega), Nat.add_mod_left, Nat.mod_eq_of_lt h, expectedBit_pass2]

section
variable {l : Nat} {f : Frame}

theorem verify_of_all_pass (h : ∀ e, e < 112 → serialOutAt l f e = expectedBit f e) :
    verify l f = ⟨.ok, 0, false, false⟩ := by
  have h1 : (List.range 56).find? (fun i => serialOutAt l f i) = none := by
    rw [List.find?_range_eq_none]
    intro i hi
    simp [h i (by omega), expectedBit_pass1 f hi]
  have h2 : (List.range 56).find? (fun i => decide (serialOutAt l f (56 + i) ≠ f.getLsbD i)) = none := by
    rw [List.find?_range_eq_none]
    intro i hi
    simp [h (56 + i) (by omega), expectedBit_pass2]
  rw [verify, h1, h2]

theorem verify_of_first_failure {e : Nat} (he : e < 112)
    (hpass : ∀ e', e' < e → serialOutAt l f e' = expectedBit f e')
    (hfail : serialOutAt l f e ≠ expectedBit f e) : verify l f = failReport f e (serialOutAt l f e) := by
  by_cases h : e < 56
  · have h1 : (List.range 56).find? (fun i => serialOutAt l f i) = some e := by
      rw [List.find?_range_eq_some]
      refine ⟨by simpa [expectedBit_pass1 f h] using hfail, by simpa using h, fun i hi => ?_⟩
      simp [hpass i hi, expectedBit_pass1 f (hi.trans h)]
    rw [verify, h1, failReport_pass1 f h]
  · obtain ⟨i, rfl⟩ := Nat.exists_eq_add_of_le (not_lt.mp h)
    have h1 : (List.range 56).find? (fun i => serialOutAt l f i) = none := by
      rw [List.find?_range_eq_none]
      intro i hi
      simp [hpass i (by omega), expectedBit_pass1 f hi]
    have h2 : (List.range 56).find? (fun i => decide (serialOutAt l f (56 + i) ≠ f.getLsbD i)) = some i := by
      rw [List.find?_range_eq_some]
      refine ⟨by simpa [expectedBit_pass2] using hfail, by simp; omega, fun j hj => ?_⟩
      simp [hpass (56 + j) (by omega), expectedBit_pass2]
    rw [verify, h1, h2, failReport_pass2 f (by omega)]

/-- Of n checks all pass, or there is a first one that fails. -/
theorem all_pass_or_first_failure (n : Nat) (pass : Nat → Prop) :
    (∀ e, e < n → pass e) ∨ ∃ e, e < n ∧ (∀ e', e' < e → pass e') ∧ ¬ pass e := by
  classical
  by_cases h : ∀ e, e < n → pass e
  · exact .inl h
  · have hex : ∃ e, e < n ∧ ¬ pass e := by simpa using h
    obtain ⟨hlt, hfail⟩ := Nat.find_spec hex
    exact .inr ⟨Nat.find hex, hlt,
      fun e' he' => by_contra fun hno => Nat.find_min hex he' ⟨he'.trans hlt, hno⟩, hfail⟩

/-- Verify gives OK exactly when every check passes. -/
theorem verify_result_eq_ok_iff :
    (verify l f).result = .ok ↔ ∀ e, e < 112 → serialOutAt l f e = expectedBit f e := by
  refine ⟨fun hok => ?_, fun h => by rw [verify_of_all_pass h]⟩
  obtain h | ⟨e, he, hpass, hfail⟩ := all_pass_or_first_failure 112 fun e => serialOutAt l f e = expectedBit f e
  · exact h
  · rw [verify_of_first_failure he hpass hfail, failReport] at hok
    split at hok <;> cases hok

/-! ### Serial-out before a data edge (42_protocol.md R101) -/

theorem shiftedBit_of_lt {e : Nat} (h : e < 56) : shiftedBit f e = f.getLsbD e := by simp [shiftedBit, h]

theorem serialOutAt_of_lt {e : Nat} (h : e < l) : serialOutAt l f e = false := by
  rw [serialOutAt, if_neg (by omega), if_neg h.not_ge]

/-- A bit reaches serial-out l edges after it went in; on a wire, at once. -/
theorem serialOutAt_add (i : Nat) : serialOutAt l f (i + l) = shiftedBit f i := by
  by_cases hl : l = 0 <;> simp [serialOutAt, hl]

theorem serialOutAt_zero_frame (e : Nat) : serialOutAt l 0 e = false := by simp [serialOutAt, shiftedBit]

theorem expectedBit_zero_frame (e : Nat) : expectedBit 0 e = false := by simp [expectedBit]

/-- On a wrong length, a frame that passes every check has only zeros: each element is compared with 0 or with an
element before it. -/
theorem getLsbD_eq_false_of_all_pass (hl : l ≠ 56) (h : ∀ e, e < 112 → serialOutAt l f e = expectedBit f e)
    {i : Nat} (hi : i < 56) : f.getLsbD i = false := by
  induction i using Nat.strong_induction_on with
  | _ i ih =>
    obtain hshort | hlong := Nat.lt_or_gt_of_ne hl
    · have hcheck := h (i + l) (by omega)
      rw [serialOutAt_add, shiftedBit_of_lt hi] at hcheck
      rw [hcheck, expectedBit]
      split
      · rfl
      · exact ih _ (by omega) (by omega)
    · have hcheck := h (56 + i) (by omega)
      rw [expectedBit_pass2] at hcheck
      rw [← hcheck]
      by_cases hreach : 56 + i < l
      · exact serialOutAt_of_lt hreach
      · obtain ⟨j, hj⟩ := Nat.exists_eq_add_of_le' (not_lt.mp hreach)
        rw [hj, serialOutAt_add, shiftedBit_of_lt (by omega)]
        exact ih j (by omega) (by omega)

end

/-! ### The frame D (42_protocol.md R105) -/

/-- The frame with elements 0 and 55 set. -/
abbrev frameD : Frame := 0x80000000000001#56

/-! ### Runs and their edges, extended at the end (42_protocol.md R100) -/

theorem runs_unique {k : Nat} {s u v : State} (hu : Runs k s u) (hv : Runs k s v) : u = v :=
  Host.Outcome.next.inj (hu.symm.trans hv)

theorem runs_snoc {k : Nat} {s u v : State} (h : Runs k s u) (hv : step u = .next v) : Runs (k + 1) s v := by
  induction k generalizing s with
  | zero =>
    obtain rfl := runs_zero.mp h
    exact runs_succ.mpr ⟨v, hv, runs_zero.mpr rfl⟩
  | succ k ih =>
    obtain ⟨m, hm, hrest⟩ := runs_succ.mp h
    exact runs_succ.mpr ⟨m, hm, ih hrest⟩

/-- What the device samples if this tick ends with a rising edge (20_memory.md R43). -/
def State.deviceInputs (s : State) : Edge := ⟨s.drst, s.den, s.dsi⟩

/-- The edge at one boundary, if there is one. -/
def edgeBetween (s t : State) : List Edge := if risingEdge s t then [s.deviceInputs] else []

theorem edgeBetween_of_flat {u v : State} (h : risingEdge u v = false) : edgeBetween u v = [] := by
  simp [edgeBetween, h]

theorem edgesOver_succ {k : Nat} {s t : State} (h : step s = .next t) :
    edgesOver (k + 1) s = edgeBetween s t ++ edgesOver k t := by
  rw [edgesOver, h, edgeBetween, State.deviceInputs]

theorem edgesOver_snoc {k : Nat} {s u v : State} (h : Runs k s u) (hv : step u = .next v) :
    edgesOver (k + 1) s = edgesOver k s ++ edgeBetween u v := by
  induction k generalizing s with
  | zero =>
    obtain rfl := runs_zero.mp h
    rw [edgesOver_succ hv]
    simp [edgesOver]
  | succ k ih =>
    obtain ⟨m, hm, hrest⟩ := runs_succ.mp h
    rw [edgesOver_succ hm, ih hrest, edgesOver_succ hm, List.append_assoc]

/-- The first `k` ticks of a command accepted in `s`, up to `u`: IDLE is not entered, the device sees the edges `es`,
and they are at the even boundaries. -/
structure Trail (k : Nat) (s u : State) (es : List Edge) : Prop where
  runs : Runs k s u
  busy : ∀ j v, 0 < j → j ≤ k → Runs j s v → v.fsm ≠ .idle
  edges : edgesOver k s = es
  square : ∀ j v w, j < k → Runs j s v → step v = .next w → (risingEdge v w = true ↔ (j + 1) % 2 = 0)

/-- The whole of a command accepted in `s`: it ends after `n` ticks in `t`, and the device sees the edges `es`, at the
even boundaries before the end. -/
structure WholeRun (n : Nat) (s t : State) (es : List Edge) : Prop where
  ends : Ends s n t
  edges : edgesOver n s = es
  square : ∀ j v w, j < n → Runs j s v → step v = .next w → (risingEdge v w = true ↔ (j + 1) % 2 = 0 ∧ j + 1 < n)

section
variable {k : Nat} {s u v : State} {es : List Edge}

theorem Trail.start (s : State) : Trail 0 s s [] :=
  ⟨runs_zero.mpr rfl, fun _ _ h h' => by omega, rfl, fun _ _ _ h => by omega⟩

theorem Trail.rst (h : Trail k s u es) (hs : Undisturbed s) : u.ports.rst = false := hs k u h.runs h.busy

theorem Trail.tick (h : Trail k s u es) (hv : step u = .next v) (hbusy : v.fsm ≠ .idle)
    (hrise : risingEdge u v = true ↔ (k + 1) % 2 = 0) : Trail (k + 1) s v (es ++ edgeBetween u v) where
  runs := runs_snoc h.runs hv
  busy j w hj hjk hw := by
    obtain hlt | rfl := Nat.lt_or_eq_of_le hjk
    · exact h.busy j w hj (Nat.lt_succ_iff.mp hlt) hw
    · rwa [runs_unique hw (runs_snoc h.runs hv)]
  edges := by rw [edgesOver_snoc h.runs hv, h.edges]
  square j w x hj hw hx := by
    obtain hlt | rfl := Nat.lt_succ_iff_lt_or_eq.mp hj
    · exact h.square j w x hlt hw hx
    · obtain rfl := runs_unique hw h.runs
      rwa [Host.Outcome.next.inj (hx.symm.trans hv)]

theorem Trail.finish (h : Trail k s u es) (hv : step u = .next v) (hidle : v.fsm = .idle)
    (hflat : risingEdge u v = false) : WholeRun (k + 1) s v es where
  ends := ⟨k.succ_pos, runs_snoc h.runs hv, hidle, fun j w hj hjk hw => h.busy j w hj (Nat.lt_succ_iff.mp hjk) hw⟩
  edges := by rw [edgesOver_snoc h.runs hv, h.edges, edgeBetween_of_flat hflat, List.append_nil]
  square j w x hj hw hx := by
    obtain hlt | rfl := Nat.lt_succ_iff_lt_or_eq.mp hj
    · rw [h.square j w x hlt hw hx, and_iff_left (by omega)]
    · obtain rfl := runs_unique hw h.runs
      obtain rfl := Host.Outcome.next.inj (hx.symm.trans hv)
      simp [hflat]

end

/-! ### The 115 clock cycles of a RUN (42_protocol.md R88) -/

/-- The state of the low half of clock cycle c: two enable cycles, one reset cycle, and 56 cycles of each pass. -/
def cycleLo (c : Nat) : Fsm := if c < 2 then .enLo else if c < 3 then .rstLo else if c < 59 then .p1Lo else .p2Lo

/-- The state of the high half of clock cycle c. -/
def cycleHi (c : Nat) : Fsm := if c < 2 then .enHi else if c < 3 then .rstHi else if c < 59 then .p1Hi else .p2Hi

/-- The element that cycle c shifts in; cycle 3 + e is data edge e. -/
def cycleIndex (c : Nat) : Nat := (c - 3) % 56

/-- What the device samples at the rising edge of cycle c. -/
def cycleEdge (f : Frame) (c : Nat) : Edge := ⟨decide (c = 2), true, decide (3 ≤ c) && shiftedBit f (c - 3)⟩

/-- The device after one cycle: sampled by the check, if the cycle has one, and clocked. -/
def Device.afterCycle (f : Frame) (c : Nat) (d : Device) : Device :=
  (if 3 ≤ c then d.sampled else d).edge (cycleEdge f c).rst (cycleEdge f c).en (cycleEdge f c).si

/-- The device at the start of cycle c. -/
def Device.atCycle (f : Frame) (d : Device) : Nat → Device
  | 0 => d
  | c + 1 => (d.atCycle f c).afterCycle f c

/-- The registers in state x of cycle c of a RUN accepted in `s`, with a device and a host. -/
def State.inCycle (s : State) (c : Nat) (x : Fsm) (d : Device) (l : List HostItem) : State :=
  State.enter
    { s with
      done := false, result := .none, failIdx := 0, failExp := false, failObs := false,
      idx := BitVec.ofNat 6 (cycleIndex c), ecnt := decide (0 < c), device := d, script := l } x

section
variable {c : Nat}

theorem cycleLo_pass1 (h3 : 3 ≤ c) (h : c < 59) : cycleLo c = .p1Lo := by
  rw [cycleLo, if_neg (by omega), if_neg (by omega), if_pos h]

theorem cycleHi_pass1 (h3 : 3 ≤ c) (h : c < 59) : cycleHi c = .p1Hi := by
  rw [cycleHi, if_neg (by omega), if_neg (by omega), if_pos h]

theorem cycleLo_pass2 (h : 59 ≤ c) : cycleLo c = .p2Lo := by
  rw [cycleLo, if_neg (by omega), if_neg (by omega), if_neg (by omega)]

theorem cycleHi_pass2 (h : 59 ≤ c) : cycleHi c = .p2Hi := by
  rw [cycleHi, if_neg (by omega), if_neg (by omega), if_neg (by omega)]

end

/-- The registers after Fail in cycle c of a RUN accepted in `s` (60_exceptions.md R114). -/
def State.failIn (s : State) (c : Nat) (d : Device) (l : List HostItem) : State :=
  let r := failReport s.fb (c - 3) (d.serialOut (cycleEdge s.fb c).si)
  State.raiseFail (s.inCycle c (cycleLo c) d l) r.result r.failIdx r.failExp r.failObs

/-- The kinds of cycles. -/
theorem cycle_kinds {c : Nat} (h : c < 115) :
    (c < 2 ∧ cycleLo c = .enLo ∧ cycleHi c = .enHi) ∨ (c = 2 ∧ cycleLo c = .rstLo ∧ cycleHi c = .rstHi) ∨
    (3 ≤ c ∧ c < 59 ∧ cycleLo c = .p1Lo ∧ cycleHi c = .p1Hi) ∨
    (59 ≤ c ∧ c < 115 ∧ cycleLo c = .p2Lo ∧ cycleHi c = .p2Hi) := by
  obtain h2 | rfl | ⟨h3, h4⟩ | h5 : c < 2 ∨ c = 2 ∨ (3 ≤ c ∧ c < 59) ∨ 59 ≤ c := by omega
  · exact .inl ⟨h2, if_pos h2, if_pos h2⟩
  · exact .inr (.inl ⟨rfl, rfl, rfl⟩)
  · exact .inr (.inr (.inl ⟨h3, h4, cycleLo_pass1 h3 h4, cycleHi_pass1 h3 h4⟩))
  · exact .inr (.inr (.inr ⟨h5, h, cycleLo_pass2 h5, cycleHi_pass2 h5⟩))

theorem cycle_clocks {c : Nat} (h : c < 115) : (cycleLo c).clocksInto (cycleHi c) := by
  obtain ⟨-, hlo, hhi⟩ | ⟨-, hlo, hhi⟩ | ⟨-, -, hlo, hhi⟩ | ⟨-, -, hlo, hhi⟩ := cycle_kinds h <;>
    simp [Fsm.clocksInto, hlo, hhi]

theorem shiftedBit_of_data_cycle (f : Frame) {c : Nat} (h3 : 3 ≤ c) (h : c < 115) :
    shiftedBit f (c - 3) = f.getLsbD (cycleIndex c) := by
  rw [shiftedBit, cycleIndex]
  congr 1
  split <;> omega

theorem expectedBit_of_pass2_cycle (f : Frame) {c : Nat} (h59 : 59 ≤ c) (h : c < 115) :
    expectedBit f (c - 3) = f.getLsbD (cycleIndex c) := by
  rw [expectedBit, if_neg (by omega), cycleIndex]
  congr 1
  omega

theorem toNat_cycleIndex (c : Nat) : (BitVec.ofNat 6 (cycleIndex c)).toNat = cycleIndex c := by
  rw [BitVec.toNat_ofNat, cycleIndex]
  omega

/-- The check of cycle c passes, if the cycle has one: the sample is the bit that the pass expects. -/
def CheckPasses (f : Frame) (d : Device) (c : Nat) : Prop :=
  3 ≤ c → d.serialOut (cycleEdge f c).si = expectedBit f (c - 3)

section
variable (s : State) (c : Nat) (x : Fsm) (d : Device) (l : List HostItem)

theorem State.inCycle_fsm : (s.inCycle c x d l).fsm = x := rfl

theorem State.inCycle_element : (s.inCycle c x d l).element = s.fb.getLsbD (cycleIndex c) :=
  congrArg s.fb.getLsbD (toNat_cycleIndex c)

theorem State.inCycle_dsi : (s.inCycle c x d l).dsi = x.dsiRow (s.fb.getLsbD (cycleIndex c)) :=
  congrArg x.dsiRow (s.inCycle_element c x d l)

/-- What the host presents stays beside the registers of the RUN. -/
theorem State.inCycle_presented : ∃ l', (s.inCycle c x d l).presented = s.inCycle c x d l' :=
  ⟨(hostTick (s.inCycle c x d l).busy l).2, rfl⟩

/-- Entering a state of a RUN forgets the state before. -/
theorem State.enter_enter {y : Fsm} (hy : y ≠ .idle) : (s.enter x).enter y = s.enter y := by
  cases y with
  | idle => exact absurd rfl hy
  | enLo | enHi | rstLo | rstHi | p1Lo | p1Hi | p2Lo | p2Hi => rfl

variable {c}

/-- In the low half of a cycle the device inputs are those of the cycle's edge. -/
theorem State.inCycle_inputs (h : c < 115) :
    (s.inCycle c (cycleLo c) d l).deviceInputs = cycleEdge s.fb c := by
  rw [State.deviceInputs, s.inCycle_dsi, cycleEdge]
  obtain ⟨h2, hlo, -⟩ | ⟨rfl, hlo, -⟩ | ⟨h3, h59, hlo, -⟩ | ⟨h59, -, hlo, -⟩ := cycle_kinds h
  · have hc : c ≠ 2 ∧ ¬ 3 ≤ c := by omega
    simp [State.inCycle, hlo, hc]
  · simp [State.inCycle, hlo]
  · have hc : c ≠ 2 := by omega
    simp [State.inCycle, hlo, hc, h3, shiftedBit_of_data_cycle s.fb h3 h]
  · have hc : c ≠ 2 ∧ 3 ≤ c := by omega
    simp [State.inCycle, hlo, hc, shiftedBit_of_data_cycle s.fb hc.2 h]

theorem State.inCycle_sample (h : c < 115) :
    (s.inCycle c (cycleLo c) d l).sample = d.serialOut (cycleEdge s.fb c).si :=
  congrArg (fun e : Edge => d.serialOut e.si) (s.inCycle_inputs d l h)

/-- A cycle whose check passes goes on to its high half. -/
theorem State.inCycle_transition_lo (h : c < 115) (hpass : CheckPasses s.fb d c) :
    (s.inCycle c (cycleLo c) d l).transition = s.inCycle c (cycleHi c) d l := by
  have henter {y : Fsm} (hy : y ≠ .idle) : (s.inCycle c (cycleLo c) d l).enter y = s.inCycle c y d l :=
    State.enter_enter _ _ hy
  have hsample := s.inCycle_sample d l h
  obtain ⟨-, hlo, hhi⟩ | ⟨-, hlo, hhi⟩ | ⟨h3, h59, hlo, hhi⟩ | ⟨h59, -, hlo, hhi⟩ := cycle_kinds h
  · rw [State.transition_enLo hlo, State.tickEnLo, henter (by simp), hhi]
  · rw [State.transition_rstLo hlo, State.tickRstLo, henter (by simp), hhi]
  · rw [State.transition_p1Lo_pass hlo, henter (by simp), hhi]
    rw [hsample, hpass h3, expectedBit_pass1 _ (by omega)]
  · rw [State.transition_p2Lo_pass hlo, henter (by simp), hhi]
    rw [hsample, hpass (by omega), State.inCycle_element, expectedBit_of_pass2_cycle _ h59 h]

/-- A cycle whose check fails ends the RUN with a report. -/
theorem State.inCycle_transition_fail (h : c < 115) (hfail : ¬ CheckPasses s.fb d c) :
    (s.inCycle c (cycleLo c) d l).transition = s.failIn c d l := by
  obtain ⟨h3, hne⟩ := Classical.not_imp.mp hfail
  rw [← s.inCycle_sample d l h] at hne
  rw [State.failIn, ← s.inCycle_sample d l h, failReport]
  obtain ⟨h2, -⟩ | ⟨rfl, -⟩ | ⟨-, h59, hlo, -⟩ | ⟨h59, -, hlo, -⟩ := cycle_kinds h
  · omega
  · omega
  · have hexp : expectedBit s.fb (c - 3) = false := expectedBit_pass1 _ (by omega)
    rw [hexp] at hne ⊢
    rw [State.transition_p1Lo_fail hlo hne, if_pos (by omega)]
    rfl
  · have hexp : expectedBit s.fb (c - 3) = (s.inCycle c (cycleLo c) d l).element := by
      rw [expectedBit_of_pass2_cycle _ h59 h, State.inCycle_element]
    rw [hexp] at hne ⊢
    rw [State.transition_p2Lo_fail hlo hne, if_neg (by omega)]
    rfl

/-- Past the first cycle, the next index makes the next cycle. -/
theorem State.inCycle_next {y : Fsm} {i : Idx} (hc : 0 < c) (hy : y ≠ .idle)
    (hi : i = BitVec.ofNat 6 (cycleIndex (c + 1))) :
    State.enter { s.inCycle c x d l with idx := i } y = s.inCycle (c + 1) y d l := by
  have hecnt : decide (0 < c) = decide (0 < c + 1) := by simp [hc]
  rw [hi, State.inCycle, State.inCycle, hecnt]
  cases y with
  | idle => exact absurd rfl hy
  | enLo | enHi | rstLo | rstHi | p1Lo | p1Hi | p2Lo | p2Hi => rfl

/-- The high half of a cycle goes on to the next cycle. -/
theorem State.inCycle_transition_hi (h : c < 114) :
    (s.inCycle c (cycleHi c) d l).transition = s.inCycle (c + 1) (cycleLo (c + 1)) d l := by
  have hidx : (s.inCycle c (cycleHi c) d l).idx.toNat = cycleIndex c := toNat_cycleIndex c
  have hnext {y : Fsm} (hc : 0 < c) (hy : y ≠ .idle) (hi : cycleIndex c + 1 = cycleIndex (c + 1)) :=
    s.inCycle_next (cycleHi c) d l (i := BitVec.ofNat 6 (cycleIndex c) + 1) hc hy
      (hi ▸ (BitVec.ofNat_add (cycleIndex c) 1).symm)
  obtain ⟨h2, -, hhi⟩ | ⟨rfl, -, -⟩ | ⟨h3, h59, -, hhi⟩ | ⟨h59, -, -, hhi⟩ := cycle_kinds (h.trans (by decide))
  · obtain rfl | rfl : c = 0 ∨ c = 1 := by omega
    · exact State.transition_enHi_first hhi rfl
    · exact State.transition_enHi_second hhi rfl
  · exact State.transition_rstHi rfl
  · obtain hlt | rfl : c < 58 ∨ c = 58 := by omega
    · have hlo : cycleLo (c + 1) = .p1Lo := cycleLo_pass1 (by omega) (by omega)
      rw [State.transition_p1Hi_next hhi (by rw [hidx, cycleIndex]; omega), hlo]
      exact hnext (by omega) (by simp) (by simp only [cycleIndex]; omega)
    · exact State.transition_p1Hi_last rfl rfl
  · have hlo : cycleLo (c + 1) = .p2Lo := cycleLo_pass2 (by omega)
    rw [State.transition_p2Hi_next hhi (by rw [hidx, cycleIndex]; omega), hlo]
    exact hnext (by omega) (by simp) (by simp only [cycleIndex]; omega)

/-- The check samples, and no other cycle does. -/
theorem cycleLo_samples (h : c < 115) : (cycleLo c).samples = decide (3 ≤ c) := by
  obtain ⟨h2, hlo, -⟩ | ⟨rfl, hlo, -⟩ | ⟨h3, -, hlo, -⟩ | ⟨h59, -, hlo, -⟩ := cycle_kinds h
  · simp [hlo]; omega
  · simp [hlo]
  · simp [hlo, h3]
  · simp [hlo]; omega

end

/-! ### The ticks of a RUN (42_protocol.md R88, R100) -/

section
variable {s : State} {c k : Nat} {d : Device} {l : List HostItem} {es : List Edge}

theorem cycleLo_ne_idle (h : c < 115) : cycleLo c ≠ .idle := fun hf => by
  simpa [hf] using ((cycle_clocks h).rows.1 true).1

theorem cycleHi_ne_idle (h : c < 115) : cycleHi c ≠ .idle := fun hf => by
  simpa [hf] using ((cycle_clocks h).rows.1 false).2

theorem State.inCycle_dclk_lo (h : c < 115) : (s.inCycle c (cycleLo c) d l).dclk = false :=
  ((cycle_clocks h).rows.1 _).1

theorem State.inCycle_dclk_hi (h : c < 115) : (s.inCycle c (cycleHi c) d l).dclk = true :=
  ((cycle_clocks h).rows.1 _).2

/-- Inside a cycle DCLK rises. -/
theorem State.inCycle_rises {l' : List HostItem} {d' : Device} (h : c < 115) :
    risingEdge (s.inCycle c (cycleLo c) d l) (s.inCycle c (cycleHi c) d' l') = true :=
  risingEdge_eq_true.mpr ⟨State.inCycle_dclk_lo h, State.inCycle_dclk_hi h⟩

theorem State.inCycle_deviceAfter {l' : List HostItem} (h : c < 115) :
    deviceAfter (s.inCycle c (cycleLo c) d l) (s.inCycle c (cycleHi c) d l') = d.afterCycle s.fb c := by
  simp only [deviceAfter, State.inCycle_rises h, if_true, State.inCycle_fsm, cycleLo_samples h, decide_eq_true_eq]
  rw [Device.afterCycle, ← s.inCycle_inputs d l h]
  rfl

/-- The low half of a cycle whose check passes ends with a rising edge of the cycle's values. -/
theorem Trail.tick_lo (ht : Trail (2 * c + 1) s (s.inCycle c (cycleLo c) d l) es) (hs : Undisturbed s) (h : c < 115)
    (hpass : CheckPasses s.fb d c) :
    ∃ l', Trail (2 * c + 2) s (s.inCycle c (cycleHi c) (d.afterCycle s.fb c) l') (es ++ [cycleEdge s.fb c]) := by
  obtain ⟨l', hl'⟩ := s.inCycle_presented c (cycleLo c) d l
  have hstep := step_of_transition (cycleLo_ne_idle h) (ht.rst hs)
    ((congrArg State.transition hl').trans (s.inCycle_transition_lo d l' h hpass))
  rw [State.inCycle_deviceAfter h] at hstep
  have hup : risingEdge (s.inCycle c (cycleLo c) d l) (s.inCycle c (cycleHi c) (d.afterCycle s.fb c) l') = true :=
    State.inCycle_rises h
  have hnext := ht.tick hstep (cycleHi_ne_idle h) (iff_of_true hup (by omega))
  have hedge : edgeBetween _ _ = [cycleEdge s.fb c] :=
    (if_pos hup).trans (congrArg (fun e => [e]) (s.inCycle_inputs d l h))
  exact ⟨l', hedge ▸ hnext⟩

/-- The high half of a cycle before the last ends with a falling edge, in the next cycle. -/
theorem Trail.tick_hi (ht : Trail (2 * c + 2) s (s.inCycle c (cycleHi c) d l) es) (hs : Undisturbed s) (h : c < 114) :
    ∃ l', Trail (2 * (c + 1) + 1) s (s.inCycle (c + 1) (cycleLo (c + 1)) d l') es := by
  have h115 : c < 115 := h.trans (by decide)
  have hsamples : (cycleHi c).samples = false := by
    obtain ⟨-, -, hhi⟩ | ⟨-, -, hhi⟩ | ⟨-, -, -, hhi⟩ | ⟨-, -, -, hhi⟩ := cycle_kinds h115 <;> simp [hhi]
  obtain ⟨l', hl'⟩ := s.inCycle_presented c (cycleHi c) d l
  have hlow : (s.inCycle (c + 1) (cycleLo (c + 1)) d l').dclk = false := State.inCycle_dclk_lo (by omega)
  have hflat := risingEdge_of_falling (s := s.inCycle c (cycleHi c) d l) hlow
  have hstep := step_of_quiet_transition (ht.rst hs)
    ((congrArg State.transition hl').trans (s.inCycle_transition_hi d l' h)) (cycleHi_ne_idle h115) hsamples
    (.inl hlow) rfl
  have hnext := ht.tick hstep (cycleLo_ne_idle (by omega)) (iff_of_false (by simp [hflat]) (by omega))
  rw [edgeBetween_of_flat hflat, List.append_nil] at hnext
  exact ⟨l', hnext⟩

/-- The end of a RUN whose check in cycle c fails: the device keeps what it holds. -/
def State.failed (s : State) (c : Nat) (d : Device) (l : List HostItem) : State :=
  { s.failIn c d l with device := d.sampled }

/-- The end of a passing RUN (42_protocol.md R97). -/
def State.passed (s : State) (d : Device) (l : List HostItem) : State :=
  State.enter ((s.inCycle 114 (cycleHi 114) d l).complete .ok) .idle

/-- A check that fails ends the RUN in its own tick, with no edge (60_exceptions.md R114). -/
theorem Trail.finish_failed (ht : Trail (2 * c + 1) s (s.inCycle c (cycleLo c) d l) es) (hs : Undisturbed s)
    (h : c < 115) (hfail : ¬ CheckPasses s.fb d c) :
    ∃ l', WholeRun (2 * c + 2) s (s.failed c d l') es := by
  obtain ⟨h3, -⟩ := Classical.not_imp.mp hfail
  obtain ⟨l', hl'⟩ := s.inCycle_presented c (cycleLo c) d l
  have hstep := step_of_transition (cycleLo_ne_idle h) (ht.rst hs)
    ((congrArg State.transition hl').trans (s.inCycle_transition_fail d l' h hfail))
  have hflat : risingEdge (s.inCycle c (cycleLo c) d l) (s.failIn c d l') = false := risingEdge_of_held rfl
  have hdev : deviceAfter (s.inCycle c (cycleLo c) d l) (s.failIn c d l') = d.sampled := by
    simp only [deviceAfter, hflat, State.inCycle_fsm, cycleLo_samples h, h3, decide_true, if_true]
    rfl
  rw [hdev] at hstep
  exact ⟨l', ht.finish hstep rfl hflat⟩

theorem State.failed_report :
    (s.failed c d l).report = failReport s.fb (c - 3) (d.serialOut (cycleEdge s.fb c).si) := rfl

theorem State.passed_report : (s.passed d l).report = ⟨.ok, 0, false, false⟩ := rfl

theorem Trail.finish_passed (ht : Trail 230 s (s.inCycle 114 (cycleHi 114) d l) es) (hs : Undisturbed s) :
    ∃ l', WholeRun 231 s (s.passed d l') es := by
  have hstep := step_of_quiet_transition (ht.rst hs) (State.transition_p2Hi_last rfl rfl) Fsm.noConfusion rfl
    (.inr rfl) rfl
  exact ⟨_, ht.finish hstep rfl (risingEdge_of_held rfl)⟩

/-- A RUN reaches every cycle before which every check passes, with the edges of the cycles before it. -/
theorem run_reaches_cycle (hrun : Accepts s .run) (hs : Undisturbed s) (h : c < 115)
    (hpass : ∀ c', c' < c → CheckPasses s.fb (s.device.atCycle s.fb c') c') :
    ∃ l, Trail (2 * c + 1) s (s.inCycle c (cycleLo c) (s.device.atCycle s.fb c) l)
      ((List.range c).map (cycleEdge s.fb)) := by
  induction c with
  | zero =>
    have hflat : risingEdge s s.presented.acceptRun = false := risingEdge_of_falling rfl
    have hfirst := (Trail.start s).tick (step_accept_run hrun) Fsm.noConfusion
      (iff_of_false (by simp [hflat]) (by decide))
    rw [edgeBetween_of_flat hflat] at hfirst
    exact ⟨_, hfirst⟩
  | succ c ih =>
    obtain ⟨l, hlo⟩ := ih (by omega) fun c' hc' => hpass c' (by omega)
    obtain ⟨l, hhi⟩ := hlo.tick_lo hs (by omega) (hpass c (by omega))
    rw [List.range_succ, List.map_append]
    exact hhi.tick_hi hs (by omega)

/-- How a RUN on any device ends when every check passes (42_protocol.md R100). -/
theorem run_of_all_pass (hrun : Accepts s .run) (hs : Undisturbed s)
    (hpass : ∀ c, c < 115 → CheckPasses s.fb (s.device.atCycle s.fb c) c) :
    ∃ l, WholeRun 231 s (s.passed (s.device.atCycle s.fb 115) l) ((List.range 115).map (cycleEdge s.fb)) := by
  obtain ⟨l, hlo⟩ := run_reaches_cycle hrun hs (c := 114) (by decide) fun c' hc' => hpass c' (by omega)
  obtain ⟨l, hhi⟩ := hlo.tick_lo hs (by decide) (hpass 114 (by decide))
  rw [List.range_succ, List.map_append]
  exact hhi.finish_passed hs

/-- How a RUN on any device ends at the first check that fails (42_protocol.md R100). -/
theorem run_of_first_failure (hrun : Accepts s .run) (hs : Undisturbed s) (h : c < 115)
    (hpass : ∀ c', c' < c → CheckPasses s.fb (s.device.atCycle s.fb c') c')
    (hfail : ¬ CheckPasses s.fb (s.device.atCycle s.fb c) c) :
    ∃ l, WholeRun (2 * c + 2) s (s.failed c (s.device.atCycle s.fb c) l) ((List.range c).map (cycleEdge s.fb)) := by
  obtain ⟨l, hlo⟩ := run_reaches_cycle hrun hs h hpass
  exact hlo.finish_failed hs h hfail

end

/-! ### A reference device over a RUN (20_memory.md R45) -/

/-- A register of l stages after a reset and e data edges of a RUN on frame f: the newest bit in stage 0. -/
def loadedRegister (l : Nat) (f : Frame) (e : Nat) : List Bool :=
  (List.range l).map fun j => decide (j < e) && shiftedBit f (e - 1 - j)

section
variable {l : Nat} {f : Frame} {e : Nat}

theorem loadedRegister_zero : loadedRegister l f 0 = List.replicate l false := by
  simp [loadedRegister, List.map_const']

theorem length_loadedRegister : (loadedRegister l f e).length = l := by simp [loadedRegister]

/-- A data edge shifts the next bit in. -/
theorem loadedRegister_succ : (shiftedBit f e :: loadedRegister l f e).take l = loadedRegister l f (e + 1) := by
  apply List.ext_getElem
  · simp [loadedRegister]
  · intro j hj hj'
    cases j with
    | zero => simp [loadedRegister]
    | succ j => simp [loadedRegister, Nat.sub_sub, Nat.add_comm]

/-- Serial-out shows the bit shifted in l edges ago. -/
theorem serialOut_loadedRegister :
    Device.serialOut (.reference (loadedRegister l f e)) (shiftedBit f e) = serialOutAt l f e := by
  cases l with
  | zero => rfl
  | succ l =>
    rw [loadedRegister, List.range_succ, List.map_append, List.map_singleton, Device.serialOut_last, serialOutAt]
    by_cases h : l < e
    · simp [h, Nat.sub_sub, Nat.add_comm]
    · simp [h]

/-- A reset clears whatever the device held, and then the data edges load it. -/
theorem Device.atCycle_reference (q : List Bool) (f : Frame) (e : Nat) :
    Device.atCycle f (.reference q) (3 + e) = .reference (loadedRegister q.length f e) := by
  induction e with
  | zero => simp [Device.atCycle, Device.afterCycle, cycleEdge, loadedRegister_zero]
  | succ e ih =>
    rw [← Nat.add_assoc, Device.atCycle, ih, Device.afterCycle, cycleEdge]
    have he : 3 + e ≠ 2 := by omega
    simp [he, length_loadedRegister, loadedRegister_succ]

/-- On a reference device the check of data edge e compares what Verify compares (42_protocol.md R101). -/
theorem checkPasses_reference_iff (q : List Bool) :
    CheckPasses f (Device.atCycle f (.reference q) (3 + e)) (3 + e) ↔ serialOutAt q.length f e = expectedBit f e := by
  rw [CheckPasses, Device.atCycle_reference, cycleEdge]
  simp [serialOut_loadedRegister]

/-- Where Verify's comparisons before data edge n hold, so do the checks of the cycles before cycle 3 + n. -/
theorem checkPasses_on_reference {s : State} {q : List Bool} {n c : Nat} (hd : s.device = .reference q)
    (hpass : ∀ e, e < n → serialOutAt q.length s.fb e = expectedBit s.fb e) (hc : c < 3 + n) :
    CheckPasses s.fb (s.device.atCycle s.fb c) c := by
  obtain h | ⟨e, rfl⟩ := (Nat.lt_or_ge c 3).imp_right Nat.exists_eq_add_of_le
  · exact fun h3 => absurd h3 h.not_ge
  · rw [hd]
    exact (checkPasses_reference_iff q).mpr (hpass e (by omega))

end

/-! ### The edges of a RUN in closed form (42_protocol.md R100) -/

theorem runEdges_eq_append (f : Frame) :
    runEdges f = [⟨false, true, false⟩, ⟨false, true, false⟩, ⟨true, true, false⟩] ++
      (elements 56 f).map (fun b => ⟨false, true, b⟩) ++ (elements 56 f).map (fun b => ⟨false, true, b⟩) := by
  simp [runEdges, List.replicate]

theorem runEdges_eq_map (f : Frame) : runEdges f = (List.range 115).map (cycleEdge f) := by
  have hpass (k : Nat) (hk : k = 3 ∨ k = 59) : (elements 56 f).map (fun b => (⟨false, true, b⟩ : Edge)) =
      (List.range 56).map fun i => cycleEdge f (k + i) := by
    rw [elements, List.map_map]
    refine List.map_congr_left fun i hi => ?_
    have hi := List.mem_range.mp hi
    have hc : k + i ≠ 2 ∧ 3 ≤ k + i := by omega
    have hindex : cycleIndex (k + i) = i := by rw [cycleIndex]; omega
    simp [cycleEdge, hc, shiftedBit_of_data_cycle f hc.2 (by omega), hindex]
  have hcut : (List.range 115).map (cycleEdge f) = (List.range 3).map (cycleEdge f) ++
      ((List.range 56).map fun i => cycleEdge f (3 + i)) ++ (List.range 56).map fun i => cycleEdge f (59 + i) := by
    rw [(by decide : 115 = 3 + 56 + 56), List.range_add, List.range_add, List.map_append, List.map_append, List.map_map,
      List.map_map]
    rfl
  rw [hcut, ← hpass 3 (.inl rfl), ← hpass 59 (.inr rfl), runEdges_eq_append]
  rfl

theorem take_runEdges (f : Frame) {c : Nat} (h : c ≤ 115) :
    (runEdges f).take c = (List.range c).map (cycleEdge f) := by
  rw [runEdges_eq_map, ← List.map_take, List.take_range, Nat.min_eq_left h]

theorem length_runEdges (f : Frame) : (runEdges f).length = 115 := by
  rw [runEdges_eq_map, List.length_map, List.length_range]

/-! ### A RUN on a reference device (42_protocol.md R102) -/

section
variable {s : State} {q : List Bool} (hd : s.device = .reference q) (hrun : Accepts s .run) (hs : Undisturbed s)
include hd hrun hs

/-- Every check of a RUN passes on a reference device: the device is loaded, and saw all the edges. -/
theorem run_passes_on_reference (hpass : ∀ e, e < 112 → serialOutAt q.length s.fb e = expectedBit s.fb e) :
    ∃ l, WholeRun 231 s (s.passed (.reference (loadedRegister q.length s.fb 112)) l) (runEdges s.fb) := by
  rw [runEdges_eq_map, ← Device.atCycle_reference q, ← hd]
  exact run_of_all_pass hrun hs fun c => checkPasses_on_reference hd hpass

/-- The check of data edge e is the first that fails on a reference device. -/
theorem run_fails_on_reference {e : Nat} (he : e < 112)
    (hpass : ∀ e', e' < e → serialOutAt q.length s.fb e' = expectedBit s.fb e')
    (hfail : serialOutAt q.length s.fb e ≠ expectedBit s.fb e) :
    ∃ t, WholeRun (8 + 2 * e) s t ((runEdges s.fb).take (3 + e)) ∧
      t.report = failReport s.fb e (serialOutAt q.length s.fb e) ∧ t.done = true := by
  have hhere : ¬ CheckPasses s.fb (s.device.atCycle s.fb (3 + e)) (3 + e) := by
    rw [hd]
    exact mt (checkPasses_reference_iff q).mp hfail
  obtain ⟨l, hend⟩ := run_of_first_failure hrun hs (by omega) (fun c => checkPasses_on_reference hd hpass) hhere
  rw [take_runEdges _ (by omega), (by omega : 8 + 2 * e = 2 * (3 + e) + 2)]
  have hso : (s.device.atCycle s.fb (3 + e)).serialOut (cycleEdge s.fb (3 + e)).si = serialOutAt q.length s.fb e := by
    rw [hd, Device.atCycle_reference, cycleEdge]
    simp [serialOut_loadedRegister]
  exact ⟨_, hend, by rw [State.failed_report, hso, Nat.add_sub_cancel_left], rfl⟩

end

end Sys2Proof.Machine

open Sys2Proof Sys2Proof.Machine

/-- Settles O30: the transitions of R90 to R93, with the outputs of a LO state read off the invariant. -/
theorem enableAndResetTransitions : Obligations.EnableAndResetTransitions := by
  intro s hs hr
  refine ⟨fun hf => ?_, fun hf he => ?_, fun hf he => ?_, fun hf => ?_, fun hf => ?_⟩
  · have hstep := step_of_transition (by simp [hf]) hr (State.transition_enLo hf)
    refine ⟨_, hstep, rfl, hs.risingEdge_of_row (by simp [hf]) rfl, ?_⟩
    simp [hs.drst, hs.den, hs.dsi, hf]
  · exact step_of_quiet_transition hr (State.transition_enHi_first hf he) (by simp [hf]) (by simp [hf]) (.inl rfl) rfl
  · exact step_of_quiet_transition hr (State.transition_enHi_second hf he) (by simp [hf]) (by simp [hf]) (.inl rfl) rfl
  · have hstep := step_of_transition (by simp [hf]) hr (State.transition_rstLo hf)
    refine ⟨_, hstep, rfl, hs.risingEdge_of_row (by simp [hf]) rfl, by simp [hs.drst, hf], fun q hq => ?_⟩
    have hup := hs.risingEdge_of_row (t := s.presented.tickRstLo) (by simp [hf]) rfl
    simp [deviceAfter_of_rising hup hq, hs.drst, hf]
  · have hstep := step_of_quiet_transition hr (State.transition_rstHi hf) (by simp [hf]) (by simp [hf]) (.inl rfl) rfl
    exact ⟨_, hstep, rfl, risingEdge_of_falling rfl, hs.dclk.trans (by simp [hf])⟩

/-- Settles O31: the two branches of the check; a pass makes a rising edge, which shifts the driven element in. -/
theorem passOneCheck : Obligations.PassOneCheck := by
  intro s hs hr hf
  have hb : s.fsm ≠ .idle := by simp [hf]
  by_cases hc : s.sample = false
  · have hstep := step_of_transition hb hr (State.transition_p1Lo_pass hf hc)
    have hup := hs.risingEdge_of_row (t := s.presented.enter .p1Hi) (by simp [hf]) rfl
    refine ⟨_, hstep, fun h => absurd hc h, fun _ => ⟨rfl, hup, by simp [hs.dsi, hf, State.element], fun q hq => ?_⟩⟩
    simp [deviceAfter_of_rising hup hq, hs.drst, hs.den, hs.dsi, hf, State.element]
  · exact ⟨_, step_of_transition hb hr (State.transition_p1Lo_fail hf hc), fun _ => rfl, fun h => absurd h hc⟩

/-- Settles O32: the two branches of the check. -/
theorem passTwoCheck : Obligations.PassTwoCheck := by
  intro s hr hf
  have hb : s.fsm ≠ .idle := by simp [hf]
  by_cases hc : s.sample = s.element
  · exact ⟨_, step_of_transition hb hr (State.transition_p2Lo_pass hf hc), fun h => absurd hc h, fun _ => rfl⟩
  · exact ⟨_, step_of_transition hb hr (State.transition_p2Lo_fail hf hc), fun _ => rfl, fun h => absurd h hc⟩

/-- Settles O33: a HI state neither samples nor raises DCLK, so its tick is the transition alone. -/
theorem passHighTransitions : Obligations.PassHighTransitions := by
  intro s hs hr
  refine ⟨fun hf hi => ?_, fun hf hi => ?_, fun hf hi => ?_, fun hf hi => ?_⟩
  · rw [step_of_quiet_transition hr (State.transition_p1Hi_next hf hi) (by simp [hf]) (by simp [hf]) (.inl rfl) rfl,
      ← Idx.toNat_succ hi]
    rfl
  · exact step_of_quiet_transition hr (State.transition_p1Hi_last hf hi) (by simp [hf]) (by simp [hf]) (.inl rfl) rfl
  · rw [step_of_quiet_transition hr (State.transition_p2Hi_next hf hi) (by simp [hf]) (by simp [hf]) (.inl rfl) rfl,
      ← Idx.toNat_succ hi]
    rfl
  · have hclk : s.dclk = true := hs.dclk.trans (by simp [hf])
    rw [step_of_quiet_transition hr (State.transition_p2Hi_last hf hi) (by simp [hf]) (by simp [hf]) (.inr rfl) rfl]
    simp [State.enter, State.complete, hclk]

/-- Settles O35: an accepted RUN clears DCLK, and any other tick in IDLE holds the device side. -/
theorem idleIsQuietAndLeftOnlyByRun : Obligations.IdleIsQuietAndLeftOnlyByRun := by
  intro s hs hr hf
  have hrow : (s.drst, s.den, s.dsi) = (false, false, false) := by simp [hs.drst, hs.den, hs.dsi, hf]
  by_cases hrun : Accepts s .run
  · exact ⟨_, step_accept_run hrun, risingEdge_of_falling rfl, hrow, fun _ => rfl, fun h => absurd hrun h⟩
  · obtain ⟨t, ht, htf, hout⟩ := step_idle_quiet hr hf hrun
    have hclk : t.dclk = s.dclk := congrArg Prod.fst hout
    exact ⟨t, ht, risingEdge_of_held hclk, hrow, fun h => absurd h hrun, fun _ => ⟨htf, hout⟩⟩

/-- Settles O38: clause by clause over the three kinds of boundary. -/
theorem noInputChangesAtADeviceEdge : Obligations.NoInputChangesAtADeviceEdge := by
  intro s t hs h
  obtain ⟨hr, hc, ht⟩ | ⟨hlow, hc, hbusy⟩ | ⟨hr, hidle, hheld⟩ := step_boundary h
  · obtain ⟨hclk, hdrst, hden, hdsi⟩ := hc.rows
    have hdown : s.dclk = false := hs.dclk.trans (hclk _).1
    have hup : t.dclk = true := by rw [ht]; exact (hclk _).2
    have hbusy : t.fsm ≠ .idle := fun h => by simpa [h] using (hclk false).2
    have hrise : risingEdge s t = true := risingEdge_eq_true.mpr ⟨hdown, hup⟩
    refine ⟨iff_of_true hrise hc, fun _ => ?_, fun hf => ?_, fun hhi _ => ?_, fun _ h => absurd h hbusy,
      fun _ h => absurd h hbusy, fun h => ?_⟩
    · rw [ht, hs.drst, hs.den, hs.dsi]
      simp [hdrst, hden, hdsi]
    · obtain hc | hc | hc | hc := hc <;> simp [hf] at hc
    · have := (hclk false).1
      obtain h | h | h | h := hhi <;> simp [h] at this
    · simp [hr] at h
  · have hflat : risingEdge s t = false := risingEdge_of_falling hlow
    exact ⟨iff_of_false (by simp [hflat]) hc, by simp [hflat], fun _ _ => hlow, fun _ _ => hlow,
      fun hr hf => absurd hf (hbusy hr), fun _ _ _ => hlow, fun _ => hlow⟩
  · have hflat : risingEdge s t = false := risingEdge_of_held hheld
    refine ⟨iff_of_false (by simp [hflat]) fun hc => ?_, by simp [hflat], fun _ h => ?_, fun _ h => absurd hidle h,
      fun _ _ => hheld, fun _ _ hlo => hheld.trans (hs.dclk.trans ?_), fun h => ?_⟩
    · simpa [hidle] using ((show s.fsm.clocksInto t.fsm from hc).rows.1 false).2
    · simp [hidle] at h
    · obtain hf | hf := hlo <;> simp [hf]
    · simp [hr] at h

/-- Settles O44: on length 56, pass 1 shows the cleared stages and pass 2 the bit of 56 edges ago. -/
theorem correctLengthAlwaysPasses : Obligations.CorrectLengthAlwaysPasses := by
  intro f
  refine verify_of_all_pass fun e he => ?_
  by_cases h : e < 56
  · rw [serialOutAt_of_lt h, expectedBit_pass1 f h]
  · obtain ⟨i, rfl⟩ := Nat.exists_eq_add_of_le (not_lt.mp h)
    rw [expectedBit_pass2, Nat.add_comm, serialOutAt_add, shiftedBit_of_lt (by omega)]

/-- Settles O45: the checks force each element to 0 in turn, and on the zero frame all bits are 0. -/
theorem wrongLengthPassesOnlyTheZeroFrame : Obligations.WrongLengthPassesOnlyTheZeroFrame := by
  intro l f hl
  rw [verify_result_eq_ok_iff]
  constructor
  · intro h
    apply BitVec.eq_of_getLsbD_eq
    intro i hi
    rw [getLsbD_eq_false_of_all_pass hl h hi, BitVec.ofNat_eq_ofNat, BitVec.getLsbD_zero]
  · rintro rfl e -
    rw [serialOutAt_zero_frame, expectedBit_zero_frame]

/-- Settles O46: element 0 is the first 1 to reach serial-out, after L edges; too late from length 57 on. -/
theorem frameDMeasuresTheLength : Obligations.FrameDMeasuresTheLength := by
  obtain ⟨-, -, helements⟩ := ldfbWritesTheOperand State.reset rfl
  refine ⟨helements, fun l hl => ?_, correctLengthAlwaysPasses _, fun l hl => ?_⟩
  · have hso : serialOutAt l frameD l = true := by
      simpa [shiftedBit, frameD] using serialOutAt_add (l := l) (f := frameD) 0
    have hexp : expectedBit frameD l = false := expectedBit_pass1 _ (by omega)
    have hpass (e : Nat) (he : e < l) : serialOutAt l frameD e = expectedBit frameD e := by
      rw [serialOutAt_of_lt he, expectedBit_pass1 _ (by omega)]
    rw [verify_of_first_failure (by omega) hpass (by simp [hso, hexp]), failReport_pass1 _ (by omega), hso]
  · have hso : serialOutAt l frameD 56 = false := serialOutAt_of_lt (by omega)
    have hexp : expectedBit frameD 56 = true := by decide
    have hpass (e : Nat) (he : e < 56) : serialOutAt l frameD e = expectedBit frameD e := by
      rw [serialOutAt_of_lt (by omega), expectedBit_pass1 _ he]
    rw [verify_of_first_failure (by decide) hpass (by simp [hso, hexp]), hso]
    rfl

/-- Settles O43: the RUN ends at the first failing check, which is the one Verify finds. -/
theorem runComputesVerify : Obligations.RunComputesVerify := by
  intro s q hd hrun hs
  obtain hpass | ⟨e, he, hpass, hfail⟩ :=
    all_pass_or_first_failure 112 fun e => serialOutAt q.length s.fb e = expectedBit s.fb e
  · obtain ⟨l, hend⟩ := run_passes_on_reference hd hrun hs hpass
    exact ⟨231, _, hend.ends, by rw [verify_of_all_pass hpass, State.passed_report], rfl⟩
  · obtain ⟨t, hend, hreport, hdone⟩ := run_fails_on_reference hd hrun hs he hpass hfail
    exact ⟨_, t, hend.ends, by rw [verify_of_first_failure he hpass hfail, hreport], hdone⟩

/-- Settles O47: the edges are those of the cycles before the end. -/
theorem runGivesTheDeviceItsEdges : Obligations.RunGivesTheDeviceItsEdges := by
  intro s q hd hrun hs
  obtain hpass | ⟨e, he, hpass, hfail⟩ :=
    all_pass_or_first_failure 112 fun e => serialOutAt q.length s.fb e = expectedBit s.fb e
  · obtain ⟨l, hend⟩ := run_passes_on_reference hd hrun hs hpass
    rw [verify_of_all_pass hpass]
    exact ⟨231, _, hend.ends, fun _ => ⟨hend.edges, length_runEdges _, runEdges_eq_append _⟩, Result.noConfusion,
      Result.noConfusion, hend.square⟩
  · obtain ⟨t, hend, -, -⟩ := run_fails_on_reference hd hrun hs he hpass hfail
    have htoNat {i : Nat} (hi : i < 56) : (BitVec.ofNat 6 i).toNat = i := Nat.mod_eq_of_lt (by omega)
    rw [verify_of_first_failure he hpass hfail]
    by_cases h : e < 56
    · rw [failReport_pass1 _ h, htoNat h]
      exact ⟨_, t, hend.ends, Result.noConfusion, fun _ => hend.edges, Result.noConfusion, hend.square⟩
    · obtain ⟨i, rfl⟩ := Nat.exists_eq_add_of_le (not_lt.mp h)
      rw [failReport_pass2 _ (by omega), htoNat (by omega), (by omega : 59 + i = 3 + (56 + i))]
      exact ⟨_, t, hend.ends, Result.noConfusion, Result.noConfusion, fun _ => hend.edges, hend.square⟩

end

-- ==== Proofs of the family 70_reset_and_hazards.md ====
section

namespace Sys2Proof.Machine

/-! ### The block reset (70_reset_and_hazards.md R124, R132) -/

/-- A tick with `rst` = 1 is the block reset, whatever else the host presents. -/
theorem step_of_rst {s : State} (hr : s.ports.rst = true) : step s = .next s.presented.blockReset := by
  simp [step, hr]

/-! ### The end of a command on any device (70_reset_and_hazards.md R139, R140) -/

/-- A command other than RUN ends in the tick after its acceptance. -/
theorem one_tick_command_ends {s : State} {i : Instr} (h : Accepts s i) (hi : i ≠ .run) : ∃ t, Ends s 1 t := by
  obtain ⟨hr, hd, hf⟩ := h
  obtain ⟨t, ht, htf, -⟩ := exec_idle_quiet (s := s.presented) hf hi
  have hstep : step s = .next t := (step_of_decode hr hd).trans ht
  exact ⟨t, Nat.one_pos, runs_succ.mpr ⟨t, hstep, runs_zero.mpr rfl⟩, htf, fun j _ h0 h1 => by omega⟩

section
variable {s : State} (hrun : Accepts s .run) (hs : Undisturbed s)
include hrun hs

/-- A RUN ends with the last check, or in the tick after the first one that fails. -/
theorem run_ends_on_any_device :
    ∃ n t, Ends s n t ∧ n ≤ 231 ∧ t.done = true ∧ (t.result = .ok ∨ t.result = .errP1 ∨ t.result = .errP2) ∧
      t.den = false := by
  obtain hpass | ⟨c, hc, hpass, hfail⟩ :=
    all_pass_or_first_failure 115 fun c => CheckPasses s.fb (s.device.atCycle s.fb c) c
  · obtain ⟨l, hend⟩ := run_of_all_pass hrun hs hpass
    exact ⟨231, _, hend.ends, le_rfl, rfl, .inl rfl, rfl⟩
  · obtain ⟨l, hend⟩ := run_of_first_failure hrun hs hc hpass hfail
    exact ⟨2 * c + 2, _, hend.ends, by omega, rfl, .inr (ite_eq_or_eq _ _ _), rfl⟩

/-! ### The tick of each half cycle (70_reset_and_hazards.md R136, R137) -/

variable {c k i : Nat} {x : Fsm}

/-- A RUN is in the low half of cycle c in tick t+1+2c, if every check before it passes. -/
theorem run_in_low_half (h : c < 115) (hpass : ∀ c', c' < c → CheckPasses s.fb (s.device.atCycle s.fb c') c')
    (hk : k = 2 * c + 1) (hx : cycleLo c = x) (hi : cycleIndex c = i) :
    ∃ u, Runs k s u ∧ u.fsm = x ∧ u.idx.toNat = i := by
  obtain ⟨l, hlo⟩ := run_reaches_cycle hrun hs h hpass
  exact ⟨_, hk ▸ hlo.runs, hx, (toNat_cycleIndex c).trans hi⟩

/-- A RUN is in the high half of cycle c in tick t+2+2c, if every check up to it passes. -/
theorem run_in_high_half (h : c < 115) (hpass : ∀ c', c' ≤ c → CheckPasses s.fb (s.device.atCycle s.fb c') c')
    (hk : k = 2 * c + 2) (hx : cycleHi c = x) (hi : cycleIndex c = i) :
    ∃ u, Runs k s u ∧ u.fsm = x ∧ u.idx.toNat = i := by
  obtain ⟨l, hlo⟩ := run_reaches_cycle hrun hs h fun c' hc' => hpass c' hc'.le
  obtain ⟨l, hhi⟩ := hlo.tick_lo hs h (hpass c le_rfl)
  exact ⟨_, hk ▸ hhi.runs, hx, (toNat_cycleIndex c).trans hi⟩

end

section
variable {i : Nat} (h : i < 56)
include h

theorem cycleIndex_pass1 : cycleIndex (3 + i) = i := by rw [cycleIndex]; omega

theorem cycleIndex_pass2 : cycleIndex (59 + i) = i := by rw [cycleIndex]; omega

end

/-! ### The device that a RUN leaves (70_reset_and_hazards.md R140) -/

/-- After all 112 data edges a register of 56 stages holds the frame, element 55 in stage 0. -/
theorem getElem?_loadedRegister_frame (f : Frame) {j : Nat} (hj : j ≤ 55) :
    (loadedRegister 56 f 112)[j]? = some (f.getLsbD (55 - j)) := by
  have hlt : j < 56 := by omega
  have hin : j < 112 := by omega
  have hbit : shiftedBit f (112 - 1 - j) = f.getLsbD (55 - j) := by
    rw [shiftedBit, if_neg (by omega), (by omega : 112 - 1 - j - 56 = 55 - j)]
  rw [loadedRegister, List.getElem?_map, List.getElem?_range hlt, Option.map_some, hbit, decide_eq_true hin,
    Bool.true_and]

end Sys2Proof.Machine

open Sys2Proof Sys2Proof.Machine

/-- Settles O48: every check passes, so each half cycle has its tick, and the whole run its edges. -/
theorem passingRunTimeline : Obligations.PassingRunTimeline := by
  intro s q hd hrun hs hok
  have hall := verify_result_eq_ok_iff.mp hok
  obtain ⟨l, hend⟩ := run_passes_on_reference hd hrun hs hall
  have hpass (c : Nat) (hc : c < 115) := checkPasses_on_reference hd hall hc
  have hlo {c k i : Nat} {x : Fsm} (hc : c < 115) :=
    run_in_low_half (k := k) (x := x) (i := i) hrun hs hc fun c' h => hpass c' (h.trans hc)
  have hhi {c k i : Nat} {x : Fsm} (hc : c < 115) :=
    run_in_high_half (k := k) (x := x) (i := i) hrun hs hc fun c' h => hpass c' (h.trans_lt hc)
  have hfsm {k i : Nat} {x : Fsm} : (∃ u, Runs k s u ∧ u.fsm = x ∧ u.idx.toNat = i) → ∃ u, Runs k s u ∧ u.fsm = x :=
    fun ⟨u, hu, hf, _⟩ => ⟨u, hu, hf⟩
  refine ⟨?_, ?_, ?_, ?_, fun i hi => ?_, ⟨_, hend.ends, rfl, rfl, rfl⟩, ?_, fun k u v hk hu hv => ?_⟩
  · rintro k (rfl | rfl)
    · exact hfsm (hlo (c := 0) (by decide) rfl rfl rfl)
    · exact hfsm (hlo (c := 1) (by decide) rfl rfl rfl)
  · rintro k (rfl | rfl)
    · exact hfsm (hhi (c := 0) (by decide) rfl rfl rfl)
    · exact hfsm (hhi (c := 1) (by decide) rfl rfl rfl)
  · exact hfsm (hlo (c := 2) (by decide) rfl rfl rfl)
  · exact hfsm (hhi (c := 2) (by decide) rfl rfl rfl)
  · have hi56 : i < 56 := Nat.lt_succ_of_le hi
    have h3 : 3 ≤ 3 + i ∧ 3 + i < 59 := by omega
    have h59 : 59 ≤ 59 + i ∧ 59 + i < 115 := by omega
    exact ⟨hlo (by omega) (by omega) (cycleLo_pass1 h3.1 h3.2) (cycleIndex_pass1 hi56),
      hhi (by omega) (by omega) (cycleHi_pass1 h3.1 h3.2) (cycleIndex_pass1 hi56),
      hlo h59.2 (by omega) (cycleLo_pass2 h59.1) (cycleIndex_pass2 hi56),
      hhi h59.2 (by omega) (cycleHi_pass2 h59.1) (cycleIndex_pass2 hi56)⟩
  · rw [hend.edges, length_runEdges]
  · rw [hend.square k u v hk hu hv]
    omega

/-- Settles O49: the check that Verify reports is the first that fails, and the RUN ends in the tick after it. -/
theorem abortedRunTimeline : Obligations.AbortedRunTimeline := by
  intro s q i hd hrun hs hi
  obtain hpass | ⟨e, he, hpass, hfail⟩ :=
    all_pass_or_first_failure 112 fun e => serialOutAt q.length s.fb e = expectedBit s.fb e
  · rw [verify_of_all_pass hpass]
    exact ⟨Result.noConfusion, Result.noConfusion⟩
  · obtain ⟨t, hend, -, -⟩ := run_fails_on_reference hd hrun hs he hpass hfail
    have hlength : (edgesOver (8 + 2 * e) s).length = 3 + e := by
      rw [hend.edges, List.length_take, length_runEdges, Nat.min_eq_left (by omega)]
    have hlo {k i : Nat} {x : Fsm} := run_in_low_half (k := k) (x := x) (i := i) hrun hs (by omega : 3 + e < 115)
      fun c => checkPasses_on_reference hd hpass
    have htoNat {i : Nat} (hi : i < 56) : (BitVec.ofNat 6 i).toNat = i := Nat.mod_eq_of_lt (by omega)
    rw [verify_of_first_failure he hpass hfail] at hi ⊢
    by_cases h : e < 56
    · rw [failReport_pass1 _ h] at hi ⊢
      obtain rfl : e = i := (htoNat h).symm.trans hi
      have hcheck := hlo (by omega : 7 + 2 * e = _) (cycleLo_pass1 (by omega) (by omega)) (cycleIndex_pass1 h)
      exact ⟨fun _ => ⟨hcheck, ⟨t, hend.ends⟩, hlength⟩, Result.noConfusion⟩
    · obtain ⟨j, rfl⟩ := Nat.exists_eq_add_of_le (not_lt.mp h)
      have hj : j < 56 := by omega
      rw [failReport_pass2 _ hj] at hi ⊢
      obtain rfl : j = i := (htoNat hj).symm.trans hi
      have htick : 8 + 2 * (56 + j) = 120 + 2 * j := by omega
      have hcycle : 3 + (56 + j) = 59 + j := by omega
      rw [htick] at hend hlength
      rw [hcycle] at hlength hlo
      have hcheck := hlo (by omega : 119 + 2 * j = _) (cycleLo_pass2 (by omega)) (cycleIndex_pass2 hj)
      exact ⟨Result.noConfusion, fun _ => ⟨hcheck, ⟨t, hend.ends⟩, hlength⟩⟩

/-- Settles O50: only a RUN takes more than one tick. -/
theorem everyCommandEndsWithin231Ticks : Obligations.EveryCommandEndsWithin231Ticks := by
  intro s i hacc hs
  by_cases hi : i = .run
  · subst hi
    obtain ⟨n, t, hend, hn, -⟩ := run_ends_on_any_device hacc hs
    exact ⟨n, t, hend, hn⟩
  · obtain ⟨t, hend⟩ := one_tick_command_ends hacc hi
    exact ⟨1, t, hend, by decide⟩

/-- Settles O51: length 56 passes every check, so the device is loaded with the frame, element 0 in its last stage. -/
theorem runEndStateAndLoadedDevice : Obligations.RunEndStateAndLoadedDevice := by
  intro s hrun hs
  refine ⟨?_, fun q hd hq => ?_⟩
  · obtain ⟨n, t, hend, -, hdone, hresult, hden⟩ := run_ends_on_any_device hrun hs
    exact ⟨n, t, hend, hdone, hresult, hden⟩
  · have hok : (verify q.length s.fb).result = .ok := by rw [hq, correctLengthAlwaysPasses s.fb]
    obtain ⟨l, hend⟩ := run_passes_on_reference hd hrun hs (verify_result_eq_ok_iff.mp hok)
    rw [hq] at hend
    have hlen : (loadedRegister 56 s.fb 112).length = 56 := length_loadedRegister
    refine ⟨231, _, _, hend.ends, rfl, rfl, hlen, fun j => getElem?_loadedRegister_frame s.fb, ?_⟩
    have hlast := Device.serialOut_eq_last_stage (by omega : 1 ≤ (loadedRegister 56 s.fb 112).length) false
    rw [hlen, getElem?_loadedRegister_frame s.fb (by decide)] at hlast
    exact Option.some.inj hlast

/-- Settles O53: the reset values, register by register; DCLK is cleared, so no edge is made. -/
theorem blockResetGivesTheResetState : Obligations.BlockResetGivesTheResetState := by
  intro s hr
  have hflat : risingEdge s s.presented.blockReset = false := risingEdge_of_falling rfl
  have hstatus : s.presented.blockReset.status = 0x0000#16 := (by decide : State.reset.status = 0x0000#16)
  exact ⟨_, step_of_rst hr, by simp [State.reset, hflat, hstatus, State.cmdReady]⟩

end

-- ==== Proofs of the family other ====
section

namespace Sys2Proof.Machine

/-! ### Decoding what is encoded (30_encoding.md R50 to R52) -/

theorem decode_encode (i : Instr) : decode (encode i) = .ok i := by
  cases i with
  | nop => exact Laws.DecodeEncode.nop
  | enc v w => exact Laws.DecodeEncode.enc v w
  | dec q w => exact Laws.DecodeEncode.dec q w
  | pack r => exact Laws.DecodeEncode.pack r
  | ldfb f => exact Laws.DecodeEncode.ldfb f
  | unpk => exact Laws.DecodeEncode.unpk
  | run => exact Laws.DecodeEncode.run
  | rsvd => exact Laws.DecodeEncode.rsvd

/-- The ports of a command hold `cmd_valid` = 1, and its code selects it. -/
theorem decode_eq_ok {p : Ports} {i : Instr} (h : decode p = .ok i) :
    p.cmdValid = true ∧ decodeOp p.cmdOp p = i := by
  by_cases hv : p.cmdValid = true
  · exact ⟨hv, Except.ok.inj ((decode_of_cmdValid hv).symm.trans h)⟩
  · rw [decode_of_not_cmdValid (by simpa using hv)] at h
    cases h

/-- A code selects a command of that code (30_encoding.md R51). -/
theorem opcode_decodeOp (op : BitVec 3) (p : Ports) : (decodeOp op p).opcode = op := by
  obtain rfl | rfl | rfl | rfl | rfl | rfl | rfl | rfl := opcode_cases op <;> rfl

theorem rst_encode (i : Instr) : (encode i).rst = false := by cases i <;> rfl

/-! ### A tick whose ports are given (40_commands.md section 1) -/

theorem State.ports_of_script {s : State} {p : Ports} {l : List HostItem} (h : s.script = .tick p :: l) :
    s.ports = p := by
  rw [State.ports, h, hostTick_tick]

theorem State.presented_of_script {s : State} {p : Ports} {l : List HostItem} (h : s.script = .tick p :: l) :
    s.presented = { s with script := l } := by
  rw [State.presented, h, hostTick_tick]

/-- A tick in which no command is accepted depends on the ports only through `rst` (40_commands.md R64, R65). -/
theorem step_of_not_accepted {s : State} (h : ¬ (s.ports.rst = false ∧ s.ports.cmdValid = true ∧ s.fsm = .idle)) :
    step s = .next (if s.ports.rst then s.presented.blockReset else s.presented.controllerTick) := by
  cases hr : s.ports.rst with
  | true => exact step_of_rst hr
  | false =>
    by_cases hf : s.fsm = .idle
    · have hv : s.ports.cmdValid = false := by simpa [hr, hf] using h
      exact step_of_no_command hr (decode_of_not_cmdValid hv)
    · exact step_busy hf hr

/-! ### One-tick commands (40_commands.md R66) -/

/-- The registers after a one-tick command has written those of its own, before it completes. -/
def State.written (s : State) : Instr → State
  | .enc v w =>
    if 1 ≤ w.toNat ∧ w.toNat ≤ 16 then
      { s with seq := encodeSeq v w.toNat, len := w, ovf := decide (2 ^ w.toNat ≤ v.toNat) }
    else s
  | .dec q w => if 1 ≤ w.toNat ∧ w.toNat ≤ 16 then { s with val := decodeSeq q w.toNat } else s
  | .pack r => { s with fb := pack r }
  | .ldfb f => { s with fb := f }
  | .unpk => { s with recReg := unpack s.fb }
  | .nop | .run | .rsvd => s

/-- The code that a one-tick command completes with (30_encoding.md R62). -/
def completionCode (i : Instr) : Result :=
  if i.wellFormed then .ok else if i = .rsvd then .errCmd else .errWidth

theorem completionCode_enc (v : Bus16) (w : Width) :
    completionCode (.enc v w) = if 1 ≤ w.toNat ∧ w.toNat ≤ 16 then .ok else .errWidth := by
  simp [completionCode, Instr.wellFormed, widthLegal_iff]

theorem completionCode_dec (q : Bus16) (w : Width) :
    completionCode (.dec q w) = if 1 ≤ w.toNat ∧ w.toNat ≤ 16 then .ok else .errWidth := by
  simp [completionCode, Instr.wellFormed, widthLegal_iff]

/-- The cause of each completion code (60_exceptions.md R109, R110). -/
theorem completionCode_cases (i : Instr) :
    (i.wellFormed = true ∧ completionCode i = .ok) ∨ (i = .rsvd ∧ completionCode i = .errCmd) ∨
    (∃ v w, (i = .enc v w ∨ i = .dec v w) ∧ (w.toNat = 0 ∨ 17 ≤ w.toNat)) ∧ completionCode i = .errWidth := by
  cases i with
  | enc v w =>
    by_cases hw : 1 ≤ w.toNat ∧ w.toNat ≤ 16
    · exact .inl ⟨(widthLegal_iff w).mpr hw, by rw [completionCode_enc, if_pos hw]⟩
    · exact .inr (.inr ⟨⟨v, w, .inl rfl, by omega⟩, by rw [completionCode_enc, if_neg hw]⟩)
  | dec q w =>
    by_cases hw : 1 ≤ w.toNat ∧ w.toNat ≤ 16
    · exact .inl ⟨(widthLegal_iff w).mpr hw, by rw [completionCode_dec, if_pos hw]⟩
    · exact .inr (.inr ⟨⟨q, w, .inr rfl, by omega⟩, by rw [completionCode_dec, if_neg hw]⟩)
  | rsvd => exact .inr (.inl ⟨rfl, rfl⟩)
  | nop | pack r | ldfb f | unpk | run => exact .inl ⟨rfl, rfl⟩

/-- In IDLE every command but NOP and RUN writes its registers and completes. -/
theorem exec_one_tick {s : State} {i : Instr} (hf : s.fsm = .idle) (hnop : i ≠ .nop) (hrun : i ≠ .run) :
    exec i s = .next ((s.written i).complete (completionCode i)) := by
  cases i with
  | nop => exact absurd rfl hnop
  | run => exact absurd rfl hrun
  | enc v w =>
    rw [completionCode_enc, State.written]
    by_cases hw : 1 ≤ w.toNat ∧ w.toNat ≤ 16
    · rw [if_pos hw, if_pos hw]
      exact exec_enc_idle_legal hf v hw
    · rw [if_neg hw, if_neg hw]
      exact exec_enc_idle_illegal hf v hw
  | dec q w =>
    rw [completionCode_dec, State.written]
    by_cases hw : 1 ≤ w.toNat ∧ w.toNat ≤ 16
    · rw [if_pos hw, if_pos hw]
      exact exec_dec_idle_legal hf q hw
    · rw [if_neg hw, if_neg hw]
      exact exec_dec_idle_illegal hf q hw
  | pack r => exact exec_pack_idle hf r
  | ldfb f => exact exec_ldfb_idle hf f
  | unpk => exact exec_unpk_idle hf
  | rsvd => exact exec_rsvd_idle hf

/-- Which registers a one-tick command writes before it completes (10_state.md section 3). -/
theorem State.written_cases (s : State) (i : Instr) :
    s.written i = s ∨
    (∃ v w, i = .enc v w ∧ (1 ≤ w.toNat ∧ w.toNat ≤ 16) ∧
      s.written i = { s with seq := encodeSeq v w.toNat, len := w, ovf := decide (2 ^ w.toNat ≤ v.toNat) }) ∨
    (∃ q w, i = .dec q w ∧ (1 ≤ w.toNat ∧ w.toNat ≤ 16) ∧ s.written i = { s with val := decodeSeq q w.toNat }) ∨
    (((∃ r, i = .pack r) ∨ ∃ f, i = .ldfb f) ∧ ∃ f, s.written i = { s with fb := f }) ∨
    (i = .unpk ∧ s.written i = { s with recReg := unpack s.fb }) := by
  cases i with
  | enc v w =>
    by_cases hw : 1 ≤ w.toNat ∧ w.toNat ≤ 16
    · exact .inr (.inl ⟨v, w, rfl, hw, if_pos hw⟩)
    · exact .inl (if_neg hw)
  | dec q w =>
    by_cases hw : 1 ≤ w.toNat ∧ w.toNat ≤ 16
    · exact .inr (.inr (.inl ⟨q, w, rfl, hw, if_pos hw⟩))
    · exact .inl (if_neg hw)
  | pack r => exact .inr (.inr (.inr (.inl ⟨.inl ⟨r, rfl⟩, _, rfl⟩)))
  | ldfb f => exact .inr (.inr (.inr (.inl ⟨.inr ⟨f, rfl⟩, _, rfl⟩)))
  | unpk => exact .inr (.inr (.inr (.inr ⟨rfl, rfl⟩)))
  | nop | run | rsvd => exact .inl rfl

/-- One-tick commands write only the codec's registers before they complete. -/
theorem State.written_eq (s : State) (i : Instr) :
    ∃ fb seq len ovf val recReg,
      s.written i = { s with fb := fb, seq := seq, len := len, ovf := ovf, val := val, recReg := recReg } := by
  obtain h | ⟨_, _, -, -, h⟩ | ⟨_, _, -, -, h⟩ | ⟨-, _, h⟩ | ⟨-, h⟩ := s.written_cases i <;>
    exact ⟨_, _, _, _, _, _, h⟩

/-! ### The ticks with `rst` = 0 (40_commands.md R64 to R67) -/

/-- With `rst` = 0 a RUN is accepted, a one-tick command completes, or the tick is the controller's own. -/
theorem step_without_reset {s t : State} (hr : s.ports.rst = false) (h : step s = .next t) :
    (Accepts s .run ∧ t = s.presented.acceptRun) ∨
    (∃ i, Accepts s i ∧ i ≠ .nop ∧ i ≠ .run ∧ t = (s.presented.written i).complete (completionCode i)) ∨
    t = s.presented.controllerTick := by
  obtain ⟨hr', -⟩ | ⟨-, i, hd, hi⟩ | ⟨-, -, rfl⟩ := step_cases h
  · simp [hr] at hr'
  · by_cases hf : s.fsm = .idle
    · have hacc : Accepts s i := ⟨hr, hd, hf⟩
      by_cases hnop : i = .nop
      · subst hnop
        exact .inr (.inr (Host.Outcome.next.inj ((exec_nop _).symm.trans hi)).symm)
      by_cases hrun : i = .run
      · subst hrun
        exact .inl ⟨hacc, Host.Outcome.next.inj (h.symm.trans (step_accept_run hacc))⟩
      · have hone := exec_one_tick (s := s.presented) hf hnop hrun
        exact .inr (.inl ⟨i, hacc, hnop, hrun, Host.Outcome.next.inj (hi.symm.trans hone)⟩)
    · exact .inr (.inr (Host.Outcome.next.inj (h.symm.trans (step_busy hf hr))))
  · exact .inr (.inr rfl)

/-- How a controller transition reports: not at all, or with the end of a passing RUN, or with Fail. -/
theorem State.transition_report (s : State) :
    s.transition.report = s.report ∨
    (s.fsm = .p2Hi ∧ 55 ≤ s.idx.toNat ∧ s.transition = (s.complete .ok).enter .idle) ∨
    (s.fsm = .p1Lo ∧ s.sample = true ∧ s.transition = s.raiseFail .errP1 s.idx false true) ∨
    (s.fsm = .p2Lo ∧ s.sample ≠ s.element ∧ s.transition = s.raiseFail .errP2 s.idx s.element (!s.element)) := by
  cases hf : s.fsm with
  | idle => exact .inl (by rw [s.transition_idle hf])
  | enLo => exact .inl (by rw [s.transition_enLo hf]; rfl)
  | enHi =>
    rw [s.transition_enHi hf, tickEnHi]
    exact .inl (by split <;> rfl)
  | rstLo => exact .inl (by rw [s.transition_rstLo hf]; rfl)
  | rstHi => exact .inl (by rw [s.transition_rstHi hf]; rfl)
  | p1Lo =>
    by_cases hc : s.sample = true
    · exact .inr (.inr (.inl ⟨rfl, hc, hc ▸ s.transition_p1Lo_fail hf (by simp [hc])⟩))
    · exact .inl (by rw [s.transition_p1Lo_pass hf (by simpa using hc)]; rfl)
  | p1Hi =>
    rw [s.transition_p1Hi hf, tickP1Hi]
    exact .inl (by split <;> rfl)
  | p2Lo =>
    by_cases hc : s.sample = s.element
    · exact .inl (by rw [s.transition_p2Lo_pass hf hc]; rfl)
    · exact .inr (.inr (.inr ⟨rfl, hc, Bool.eq_not.mpr hc ▸ s.transition_p2Lo_fail hf hc⟩))
  | p2Hi =>
    by_cases hi : s.idx.toNat < 55
    · exact .inl (by rw [s.transition_p2Hi_next hf hi]; rfl)
    · exact .inr (.inl ⟨rfl, not_lt.mp hi, by rw [s.transition_p2Hi hf, tickP2Hi, if_neg hi]⟩)

/-! ### The invariant of the registers (10_state.md sections 2 to 5) -/

section
variable {s : State}

/-- The invariant speaks of the registers alone. -/
theorem StateInv.environment (hs : StateInv s) (d : Device) (l : List HostItem) :
    StateInv { s with device := d, script := l } := { hs with }

/-- A one-tick command keeps the padding of SEQ (10_state.md R19, R20). -/
theorem StateInv.written_padding (hs : StateInv s) (i : Instr) :
    (s.written i).len.toNat ≤ 16 ∧ ∀ k, (s.written i).len.toNat ≤ k → (s.written i).seq.getLsbD k = false := by
  obtain h | ⟨_, _, -, hw, h⟩ | ⟨_, _, -, -, h⟩ | ⟨-, _, h⟩ | ⟨-, h⟩ := s.written_cases i <;> rw [h]
  case inr.inl => exact ⟨hw.2, fun k => getLsbD_encodeSeq_of_ge⟩
  all_goals exact ⟨hs.len, hs.seqPadding⟩

/-- No completion code is NONE or a failure of a RUN. -/
theorem completionCode_not_run (i : Instr) :
    completionCode i ≠ .none ∧ completionCode i ≠ .errP1 ∧ completionCode i ≠ .errP2 := by
  obtain ⟨-, h⟩ | ⟨-, h⟩ | ⟨-, h⟩ := completionCode_cases i <;> simp [h]

/-- A one-tick command keeps the invariant: its outcome asks nothing of the report. -/
theorem StateInv.one_tick (hs : StateInv s) (hf : s.fsm = .idle) (i : Instr) :
    StateInv ((s.written i).complete (completionCode i)) := by
  have hpad := hs.written_padding i
  obtain ⟨hnone, hp1, hp2⟩ := completionCode_not_run i
  obtain ⟨fb, seq, len, ovf, val, recReg, h⟩ := s.written_eq i
  have hdsi : s.dsi = false := by simp [hs.dsi, hf]
  rw [h] at hpad ⊢
  exact { hs with
    dsi := by simp [hf, hdsi]
    running := fun hb => absurd hf hb
    outcome := by simp [hnone]
    failP1 := fun hc => absurd hc hp1
    failP2 := fun hc => absurd hc hp2
    len := hpad.1
    seqPadding := hpad.2 }

/-- The acceptance of a RUN clears the outcome and the report (42_protocol.md R87). -/
theorem StateInv.acceptRun (hs : StateInv s) : StateInv s.acceptRun :=
  { hs with
    dclk := rfl
    drst := rfl
    den := rfl
    dsi := rfl
    idx := Nat.zero_le 55
    idxStart := fun _ _ => rfl
    ecnt := fun hp => Bool.noConfusion hp
    running := fun _ => ⟨rfl, rfl⟩
    outcome := rfl
    failIdx := Nat.zero_le 55
    failP1 := Result.noConfusion
    failP2 := Result.noConfusion }

/-- A running RUN may enter any state with an index and an enable count that fit it. -/
theorem StateInv.enter_busy (hs : StateInv s) (hf : s.fsm ≠ .idle) {i : Idx} {e : Bool} {x : Fsm} (hi : i.toNat ≤ 55)
    (hstart : x.inPass = false → i = 0) (he : x.pastEnable = true → e = true) :
    StateInv (State.enter { s with idx := i, ecnt := e } x) :=
  { hs with
    dclk := by cases x <;> rfl
    drst := rfl
    den := rfl
    dsi := rfl
    idx := hi
    idxStart := fun _ => hstart
    ecnt := he
    running := fun _ => hs.running hf }

/-- A RUN that passes leaves the report as its acceptance cleared it. -/
theorem StateInv.finish (hs : StateInv s) : StateInv ((s.complete .ok).enter .idle) :=
  { hs with
    dclk := rfl
    drst := rfl
    den := rfl
    dsi := rfl
    idxStart := fun hb => absurd rfl hb
    ecnt := fun hp => Bool.noConfusion hp
    running := fun hb => absurd rfl hb
    outcome := rfl
    failP1 := Result.noConfusion
    failP2 := Result.noConfusion }

/-- Fail reports an index of the frame and two different bits (60_exceptions.md R114). -/
theorem StateInv.raiseFail (hs : StateInv s) {c : Result} {e : Bool}
    (hc : (c = .errP1 ∧ e = false) ∨ (c = .errP2 ∧ e = s.element)) : StateInv (s.raiseFail c s.idx e (!e)) :=
  { hs with
    dclk := rfl
    drst := rfl
    den := rfl
    dsi := rfl
    idxStart := fun hb => absurd rfl hb
    ecnt := fun hp => Bool.noConfusion hp
    running := fun hb => absurd rfl hb
    outcome := by obtain ⟨rfl, -⟩ | ⟨rfl, -⟩ := hc <;> rfl
    failIdx := hs.idx
    failP1 := by obtain ⟨rfl, rfl⟩ | ⟨rfl, -⟩ := hc <;> simp
    failP2 := by obtain ⟨rfl, -⟩ | ⟨rfl, rfl⟩ := hc <;> simp [State.element] }

/-- The controller keeps the invariant, state by state (42_protocol.md R90 to R98). -/
theorem StateInv.transition (hs : StateInv s) : StateInv s.transition := by
  by_cases hidle : s.fsm = .idle
  · rwa [State.transition_idle hidle]
  have hstart := hs.idxStart hidle
  have hecnt := hs.ecnt
  have henter {i : Idx} {e : Bool} {x : Fsm} := hs.enter_busy hidle (i := i) (e := e) (x := x)
  have hzero : (0 : Idx).toNat ≤ 55 := Nat.zero_le 55
  cases hf : s.fsm with
  | idle => exact absurd hf hidle
  | enLo =>
    rw [State.transition_enLo hf]
    exact henter hs.idx (fun _ => hstart (by simp [hf])) (by simp)
  | enHi =>
    have h0 : s.idx = 0 := hstart (by simp [hf])
    cases he : s.ecnt with
    | false =>
      rw [State.transition_enHi_first hf he]
      exact henter hs.idx (fun _ => h0) (by simp)
    | true =>
      rw [State.transition_enHi_second hf he]
      exact henter hs.idx (fun _ => h0) fun _ => he
  | rstLo =>
    rw [State.transition_rstLo hf]
    exact henter hs.idx (fun _ => hstart (by simp [hf])) fun _ => hecnt (by simp [hf])
  | rstHi =>
    rw [State.transition_rstHi hf]
    exact henter hzero (fun _ => rfl) fun _ => hecnt (by simp [hf])
  | p1Lo =>
    by_cases hc : s.sample = false
    · rw [State.transition_p1Lo_pass hf hc]
      exact henter hs.idx (by simp) fun _ => hecnt (by simp [hf])
    · rw [State.transition_p1Lo_fail hf hc, Bool.eq_true_of_not_eq_false hc]
      exact hs.raiseFail (.inl ⟨rfl, rfl⟩)
  | p1Hi =>
    obtain hi | hi := Nat.lt_or_eq_of_le hs.idx
    · rw [State.transition_p1Hi_next hf hi]
      exact henter (by rw [Idx.toNat_succ hi]; exact hi) (by simp) fun _ => hecnt (by simp [hf])
    · rw [State.transition_p1Hi_last hf hi]
      exact henter hzero (by simp) fun _ => hecnt (by simp [hf])
  | p2Lo =>
    by_cases hc : s.sample = s.element
    · rw [State.transition_p2Lo_pass hf hc]
      exact henter hs.idx (by simp) fun _ => hecnt (by simp [hf])
    · rw [State.transition_p2Lo_fail hf hc, Bool.eq_not.mpr hc]
      exact hs.raiseFail (.inr ⟨rfl, rfl⟩)
  | p2Hi =>
    obtain hi | hi := Nat.lt_or_eq_of_le hs.idx
    · rw [State.transition_p2Hi_next hf hi]
      exact henter (by rw [Idx.toNat_succ hi]; exact hi) (by simp) fun _ => hecnt (by simp [hf])
    · rw [State.transition_p2Hi_last hf hi]
      exact hs.finish

end

theorem StateInv.reset : StateInv State.reset where
  dclk := rfl
  drst := rfl
  den := rfl
  dsi := rfl
  idx := Nat.zero_le 55
  idxStart := fun _ _ => rfl
  ecnt := fun hp => Bool.noConfusion hp
  running := fun hb => absurd rfl hb
  outcome := rfl
  failIdx := Nat.zero_le 55
  failP1 := Result.noConfusion
  failP2 := Result.noConfusion
  len := Nat.zero_le 16
  seqPadding := fun _ _ => BitVec.getLsbD_zero

/-! ### Fail in a tick (60_exceptions.md R114) -/

/-- A check that fails, with the report it raises; DCLK is 0 in its tick. -/
theorem StateInv.failing_check {s : State} (hs : StateInv s)
    (h : (s.fsm = .p1Lo ∧ s.sample = true) ∨ (s.fsm = .p2Lo ∧ s.sample ≠ s.element)) :
    ∃ c e, s.presented.transition = s.presented.raiseFail c s.idx e s.sample ∧
      c = (if s.fsm = .p1Lo then .errP1 else .errP2) ∧ e = (if s.fsm = .p1Lo then false else s.element) ∧
      s.sample = !e ∧ s.fsm ≠ .idle ∧ s.dclk = false := by
  have hclk := hs.dclk
  obtain ⟨hf, hc⟩ | ⟨hf, hc⟩ := h
  · have htrans := State.transition_p1Lo_fail (s := s.presented) hf (by simp [hc])
    exact ⟨_, _, htrans, by simp [hf], by simp [hf], by simp [hc], by simp [hf], by simpa [hf] using hclk⟩
  · have htrans := State.transition_p2Lo_fail (s := s.presented) hf hc
    exact ⟨_, _, htrans, by simp [hf], by simp [hf], Bool.eq_not.mpr hc, by simp [hf], by simpa [hf] using hclk⟩

/-! ### Runs (20_memory.md R46) -/

/-- Every command has a next state. -/
theorem exec_next (i : Instr) (s : State) : ∃ t, exec i s = .next t := by
  by_cases hf : s.fsm = .idle
  · by_cases hi : i = .run
    · exact ⟨_, hi ▸ exec_run_idle hf⟩
    · obtain ⟨t, ht, -⟩ := exec_idle_quiet hf hi
      exact ⟨t, ht⟩
  · exact ⟨_, exec_busy hf i⟩

theorem step_next (s : State) : ∃ t, step s = .next t := by
  by_cases h : s.ports.rst = false ∧ s.ports.cmdValid = true ∧ s.fsm = .idle
  · obtain ⟨hr, hv, -⟩ := h
    rw [step_of_decode hr (decode_of_cmdValid hv)]
    exact exec_next _ _
  · exact ⟨_, step_of_not_accepted h⟩

theorem runs_of_step {k : Nat} {s u t : State} (h : step s = .next u) : Runs (k + 1) s t ↔ Runs k u t := by
  simp [runs_succ, h]

/-- A line for RUN is accepted in IDLE (40_commands.md R64, R69). -/
theorem step_run_line {s : State} {l : List HostItem} (hf : s.fsm = .idle)
    (hl : s.script = .tick (encode .run) :: l) : step s = .next (State.acceptRun { s with script := l }) := by
  have hacc : Accepts s .run := by
    rw [Accepts, State.ports_of_script hl]
    exact ⟨rst_encode .run, decode_encode .run, hf⟩
  rw [step_accept_run hacc, State.presented_of_script hl]

/-! ### WAIT (40_commands.md R70) -/

theorem hostTick_wait_busy (l : List HostItem) : hostTick true (.wait :: l) = (Ports.quiet, .wait :: l) := rfl

theorem hostTick_wait_idle (l : List HostItem) : hostTick false (.wait :: l) = hostTick false l := rfl

/-! ### Outputs (10_state.md section 6) -/

theorem State.cmdReady_eq_true (s : State) : s.cmdReady = true ↔ s.fsm = .idle := by simp [State.cmdReady]

theorem State.status_bit_zero (s : State) : s.status.getLsbD 0 = s.busy := by
  rw [State.status, BitVec.getLsbD_append]
  simp

/-- FSM has the codes 0 to 8, and 0 is IDLE's (10_state.md R15). -/
theorem Fsm.code_bounds (x : Fsm) : x.code.toNat ≤ 8 ∧ (x.code = 0#4 ↔ x = .idle) := by cases x <;> decide

theorem Fsm.samples_iff (x : Fsm) : x.samples = true ↔ x = .p1Lo ∨ x = .p2Lo := by cases x <;> simp

/-! ### A register over data edges (20_memory.md R42, R45) -/

/-- What the device samples at an edge that shifts a bit in. -/
def dataEdge (b : Bool) : Edge := ⟨false, true, b⟩

/-- Shifting bits in puts them before the contents, the last one first, and drops what leaves the register. -/
theorem Device.edges_dataEdge (q bits : List Bool) :
    Device.edges (.reference q) (bits.map dataEdge) = .reference ((bits.reverse ++ q).take q.length) := by
  induction bits generalizing q with
  | nil => simp [Device.edges]
  | cons b bits ih =>
    have hlen : ((b :: q).take q.length).length = q.length := by simp
    have hfirst : Device.edges (.reference q) ((b :: bits).map dataEdge) =
        Device.edges (.reference ((b :: q).take q.length)) (bits.map dataEdge) := rfl
    rw [hfirst, ih, hlen, List.reverse_cons, List.append_assoc, List.singleton_append]
    simp [List.take_append, List.take_take]

/-- The last stage of a cleared register of l stages shows the bit of l edges ago, once there is one. -/
theorem Device.serialOut_shifted (bits : List Bool) {l : Nat} (hl : 0 < l) (si : Bool) :
    Device.serialOut (.reference ((bits.reverse ++ List.replicate l false).take l)) si =
      if l ≤ bits.length then bits.getD (bits.length - l) false else false := by
  have hlen : ((bits.reverse ++ List.replicate l false).take l).length = l := by simp
  have hlast := Device.serialOut_eq_last_stage (hlen.symm ▸ hl) si
  rw [hlen, List.getElem?_take_of_lt (by omega)] at hlast
  apply Option.some.inj
  rw [hlast]
  by_cases h : l ≤ bits.length
  · have hreach : l - 1 < bits.length := by omega
    rw [if_pos h, List.getElem?_append_left (by simpa using hreach), List.getElem?_reverse hreach,
      (by omega : bits.length - 1 - (l - 1) = bits.length - l), List.getD_eq_getElem?_getD,
      List.getElem?_eq_getElem (by omega), Option.getD_some]
  · have hzero : l - 1 - bits.reverse.length < l := by omega
    rw [if_neg h, List.getElem?_append_right (by simp; omega), List.getElem?_replicate, if_pos hzero]

/-! ### Two RUNs under two hosts (42_protocol.md section 3) -/

section
variable (s : State) (c : Nat) (d : Device) (l l' m : List HostItem)

theorem State.passed_script :
    State.passed { s with script := m } d l' = { s.passed d l with script := l' } := rfl

theorem State.failed_script :
    State.failed { s with script := m } c d l' = { s.failed c d l with script := l' } := rfl

end

end Sys2Proof.Machine

open Sys2Proof Sys2Proof.Machine

/-- Settles O37: the block reset, the acceptance of a RUN, a one-tick command and the controller's tick each keep it. -/
theorem stepKeepsTheInvariant : Obligations.StepKeepsTheInvariant := by
  intro s t hs h
  have hp := hs.presented
  by_cases hr : s.ports.rst = true
  · obtain rfl := Host.Outcome.next.inj ((step_of_rst hr).symm.trans h)
    exact StateInv.reset.environment _ _
  · obtain ⟨-, rfl⟩ | ⟨i, ⟨-, -, hf⟩, -, -, rfl⟩ | rfl := step_without_reset (by simpa using hr) h
    · exact hp.acceptRun
    · exact hp.one_tick hf i
    · exact hp.transition.environment _ _

/-- Settles O3: round trip constructor by constructor, and a code selects a command of that code. -/
theorem decodeAndEncodeAgree : Obligations.DecodeAndEncodeAgree := by
  intro i
  refine ⟨decode_encode i, rst_encode i, fun p hp => ?_⟩
  obtain ⟨hv, hi⟩ := decode_eq_ok hp
  have hop : p.cmdOp = i.opcode := by rw [← hi, opcode_decodeOp]
  rw [Ports.pattern, hv, hop]
  rfl

/-- Settles O8: a tick without acceptance reads `rst` alone. -/
theorem acceptanceNeedsIdleValidAndNoReset : Obligations.AcceptanceNeedsIdleValidAndNoReset := by
  intro s p l hl
  have hp := State.ports_of_script hl
  rw [← hp]
  refine ⟨fun ⟨hr, hv, _⟩ => ⟨_, decode_of_cmdValid hv, ?_⟩, fun h => ?_⟩
  · rw [step_of_decode hr (decode_of_cmdValid hv), State.presented_of_script hl]
  · rw [step_of_not_accepted h, step_of_not_accepted fun ⟨_, hv, _⟩ => Bool.false_ne_true hv,
      State.presented_of_script hl]
    rfl

/-- Settles O17: only the codec's registers are written before the completion. -/
theorem oneTickCommandsComplete : Obligations.OneTickCommandsComplete := by
  intro s i hf hnop hrun
  obtain ⟨fb, seq, len, ovf, val, recReg, hw⟩ := s.written_eq i
  refine ⟨_, exec_one_tick hf hnop hrun, ?_⟩
  rw [hw]
  exact ⟨rfl, hf, (State.cmdReady_eq_true _).mpr hf, rfl, rfl, rfl, rfl, rfl, rfl⟩

/-- Settles O18: by the kind of the tick, and for a one-tick command by the registers it writes. -/
theorem registersHaveOnlyTheirWriters : Obligations.RegistersHaveOnlyTheirWriters := by
  intro s t hr h
  obtain ⟨hrun, rfl⟩ | ⟨i, hacc, -, -, rfl⟩ | rfl := step_without_reset hr h
  · exact ⟨absurd rfl, absurd rfl, absurd rfl, absurd rfl, fun _ => .inl hrun⟩
  · obtain h | ⟨v, w, rfl, hw, h⟩ | ⟨q, w, rfl, hw, h⟩ | ⟨hi, f, h⟩ | ⟨rfl, h⟩ := s.presented.written_cases i <;> rw [h]
    · exact ⟨absurd rfl, absurd rfl, absurd rfl, absurd rfl, absurd rfl⟩
    · exact ⟨absurd rfl, fun _ => ⟨v, w, hacc, hw⟩, absurd rfl, absurd rfl, absurd rfl⟩
    · exact ⟨absurd rfl, absurd rfl, fun _ => ⟨q, w, hacc, hw⟩, absurd rfl, absurd rfl⟩
    · refine ⟨fun _ => ?_, absurd rfl, absurd rfl, absurd rfl, absurd rfl⟩
      exact hi.imp (fun ⟨r, hr⟩ => ⟨r, hr ▸ hacc⟩) fun ⟨f, hf⟩ => ⟨f, hf ▸ hacc⟩
    · exact ⟨absurd rfl, absurd rfl, absurd rfl, fun _ => hacc, absurd rfl⟩
  · obtain ⟨hfb, hseq, hlen, hovf, hval, hrec, -⟩ := State.controllerTick_frame s.presented
    refine ⟨absurd hfb, absurd (by rw [hseq, hlen, hovf]; rfl), absurd hval, absurd hrec, fun hne => .inr ?_⟩
    obtain hsame | ⟨-, -, ht⟩ | ⟨hf, hc, -⟩ | ⟨hf, hc, -⟩ := s.presented.transition_report
    · obtain ⟨-, hidx, hexp, hobs⟩ := Report.mk.inj hsame
      exact absurd (congrArg₂ Prod.mk hidx (congrArg₂ Prod.mk hexp hobs)) hne
    · exact absurd (by simp [ht]) hne
    · exact .inl ⟨hf, hc⟩
    · exact .inr ⟨hf, hc⟩

/-- Settles O19: by the kind of the tick, with the cause of a completion code and of a report. -/
theorem resultCodesHaveTheirCauses : Obligations.ResultCodesHaveTheirCauses := by
  refine ⟨⟨rfl, rfl, rfl, rfl, rfl, rfl⟩, fun s t hr h hne => ?_⟩
  obtain ⟨hrun, ht⟩ | ⟨i, hacc, hnop, hrun, ht⟩ | ht := step_without_reset hr h
  · have hres : t.result = .none := by rw [ht]; rfl
    rw [hres]
    exact ⟨fun _ => hrun, nofun, nofun, nofun, nofun, nofun⟩
  · have hres : t.result = completionCode i := by rw [ht]; rfl
    rw [hres]
    obtain ⟨hwf, hc⟩ | ⟨rfl, hc⟩ | ⟨⟨v, w, hi, hw⟩, hc⟩ := completionCode_cases i <;> rw [hc]
    · exact ⟨nofun, fun _ => .inr ⟨i, hacc, hwf, hnop, hrun⟩, nofun, nofun, nofun, nofun⟩
    · exact ⟨nofun, nofun, nofun, nofun, fun _ => hacc, nofun⟩
    · refine ⟨nofun, nofun, nofun, nofun, nofun, fun _ => ⟨v, w, ?_, hw⟩⟩
      obtain rfl | rfl := hi
      · exact .inl hacc
      · exact .inr hacc
  · obtain hsame | ⟨hf, hi, htrans⟩ | ⟨hf, hc, htrans⟩ | ⟨hf, hc, htrans⟩ := s.presented.transition_report
    · exact absurd (by rw [ht]; exact (Report.mk.inj hsame).1) hne
    · have hres : t.result = .ok := by simp [ht, htrans]
      rw [hres]
      exact ⟨nofun, fun _ => .inl ⟨hf, hi⟩, nofun, nofun, nofun, nofun⟩
    · have hres : t.result = .errP1 := by simp [ht, htrans]
      rw [hres]
      exact ⟨nofun, nofun, fun _ => ⟨hf, hc, by simp [ht, htrans]⟩, nofun, nofun, nofun⟩
    · have hres : t.result = .errP2 := by simp [ht, htrans]
      rw [hres]
      exact ⟨nofun, nofun, nofun, fun _ => ⟨hf, hc, by simp [ht, htrans]⟩, nofun, nofun⟩

/-- Settles O34: Fail holds DCLK, which is 0 there, so no edge reaches the device. -/
theorem failingCheckAbortsPrecisely : Obligations.FailingCheckAbortsPrecisely := by
  intro s hs hr h
  obtain ⟨c, e, htrans, hc, he, hso, hf, hclk⟩ := hs.failing_check h
  have hflat : risingEdge s (s.presented.raiseFail c s.idx e s.sample) = false := risingEdge_of_held rfl
  refine ⟨_, step_of_transition hf hr htrans, ?_⟩
  rw [← hc, ← he]
  exact ⟨rfl, hso, rfl, rfl, rfl, congrArg (·, false, false, false) hclk, hflat,
    fun q hq => deviceAfter_of_not_rising hflat hq, rfl⟩

/-- Settles O42: the last stage of a cleared register is the bit of L edges ago. -/
theorem serialOutDelaysByTheLength : Obligations.SerialOutDelaysByTheLength := by
  refine ⟨fun l bits e b hb => ?_, fun f e he => ?_⟩
  · obtain ⟨he, -⟩ := List.getElem?_eq_some_iff.mp hb
    have hlen : (bits.take e).length = e := by simp [he.le]
    have hedges := Device.edges_dataEdge (List.replicate l false) (bits.take e)
    rw [List.length_replicate] at hedges
    refine (congrArg (Device.serialOut · b) hedges).trans ?_
    by_cases hl : l = 0
    · subst hl
      rfl
    · rw [if_neg hl, Device.serialOut_shifted _ (Nat.pos_of_ne_zero hl), hlen]
      split
      · rw [List.getD_eq_getElem?_getD, List.getD_eq_getElem?_getD, List.getElem?_take_of_lt (by omega)]
      · rfl
  · have hc : 3 + e ≠ 2 ∧ 3 ≤ 3 + e := by omega
    rw [List.getElem?_drop, runEdges_eq_map, List.getElem?_map, List.getElem?_range (by omega), Option.map_some]
    simp [cycleEdge, hc, shiftedBit]

/-- Settles O52: the end of a RUN is read off the frame, the device and the registers at its acceptance. -/
theorem hostCannotDisturbARun : Obligations.HostCannotDisturbARun := by
  intro s s' hs' hrun hrun' hu hu'
  obtain ⟨m, rfl⟩ : ∃ m, s' = { s with script := m } := ⟨_, hs'⟩
  obtain hpass | ⟨c, hc, hpass, hfail⟩ :=
    all_pass_or_first_failure 115 fun c => CheckPasses s.fb (s.device.atCycle s.fb c) c
  · obtain ⟨l, hend⟩ := run_of_all_pass hrun hu hpass
    obtain ⟨l', hend'⟩ := run_of_all_pass hrun' hu' hpass
    exact ⟨231, _, _, hend.ends, hend'.ends, s.passed_script _ l l' m⟩
  · obtain ⟨l, hend⟩ := run_of_first_failure hrun hu hc hpass hfail
    obtain ⟨l', hend'⟩ := run_of_first_failure hrun' hu' hc hpass hfail
    exact ⟨2 * c + 2, _, _, hend.ends, hend'.ends, s.failed_script c _ l l' m⟩

/-- Settles O55: WAIT by BUSY, and the line straight after RUN is dropped while busy. -/
theorem pseudoInstructionsExpand : Obligations.PseudoInstructionsExpand := by
  refine ⟨fun n => List.append_nil _, rfl, fun _ => rfl, fun _ => rfl, fun s l hl => ⟨fun hb => ?_, fun hb => ?_⟩, ?_⟩
  · rw [State.ports, State.presented_script, hl, hb, hostTick_wait_busy]
    exact ⟨rfl, rfl, rfl⟩
  · rw [State.ports, State.presented_script, hl, hb, hostTick_wait_idle, ← hb]
    exact ⟨rfl, rfl⟩
  · intro s i l m hf hl hm t
    have hdrop := (commandsWhileBusyAreDropped s.acceptRun (encode i) (programItems l) Fsm.noConfusion
      (rst_encode i)).2
    have hrun := step_run_line (s := { s with script := m }) hf hm
    rw [runs_of_step (step_run_line hf hl), runs_of_step hrun, runs_succ, runs_succ]
    exact exists_congr fun u => and_congr_left' (Eq.congr_left hdrop)

/-- Settles O56: a LO state rises, a HI state falls, and IDLE holds DCLK until a RUN clears it. -/
theorem deviceClockIsASquareWave : Obligations.DeviceClockIsASquareWave := by
  refine ⟨fun s t hs hr h => ?_, rfl⟩
  by_cases hf : s.fsm = .idle
  · by_cases hrun : Accepts s .run
    · obtain rfl := Host.Outcome.next.inj ((step_accept_run hrun).symm.trans h)
      exact ⟨fun _ _ => rfl, absurd hf, fun _ => Fsm.noConfusion⟩
    · obtain ⟨t', ht', htf, hout⟩ := step_idle_quiet hr hf hrun
      obtain rfl := Host.Outcome.next.inj (ht'.symm.trans h)
      exact ⟨fun _ => absurd htf, absurd hf, fun _ _ => congrArg Prod.fst hout⟩
  · obtain rfl := Host.Outcome.next.inj ((step_busy hf hr).symm.trans h)
    refine ⟨(absurd · hf), fun _ ht => ?_, (absurd · hf)⟩
    have hclk := hs.dclk
    obtain ⟨y, hy, htrans⟩ | ⟨hhi, -, hlow⟩ | ⟨hidle, -⟩ := State.transition_boundary (s := s.presented) hf
    · have hup : s.presented.controllerTick.dclk = true := (congrArg State.dclk htrans).trans (hy.rows.1 _).2
      have hdown : s.dclk = false := hclk.trans (hy.rows.1 _).1
      rw [hup, hdown, Bool.not_false]
    · have hup : s.dclk = true := by
        by_contra hno
        rw [Bool.eq_false_of_not_eq_true hno] at hclk
        exact absurd (hclk.trans hhi) Bool.false_ne_true
      exact hlow.trans (by rw [hup, Bool.not_true])
    · exact absurd hidle ht

/-- Settles O58: only the controller's tick moves the draw on, and only in a state that samples. -/
theorem freeSamplesAreNewAtEveryCheck : Obligations.FreeSamplesAreNewAtEveryCheck := by
  intro s n hd
  refine ⟨by rw [State.sample, hd, Device.serialOut_free], ?_⟩
  by_cases hr : s.ports.rst = true
  · exact ⟨_, step_of_rst hr, by simp [hr], fun _ => hd⟩
  have hr : s.ports.rst = false := by simpa using hr
  by_cases hf : s.fsm = .idle
  · obtain ⟨t, ht⟩ := step_next s
    refine ⟨t, ht, by simp [hf], fun _ => ?_⟩
    obtain rfl | ⟨hdev, -⟩ := step_controllerTick_or_no_edge ht
    · rw [State.controllerTick_idle (by simpa using hf)]
      exact hd
    · exact hdev.trans hd
  · have hdev := deviceAfter_unspecified (t := s.presented.transition) (s := s.presented) hd
    refine ⟨_, step_busy hf hr, fun _ hc => hdev.trans ?_, fun hno => hdev.trans ?_⟩
    · exact congrArg Device.unspecified (if_pos ((Fsm.samples_iff _).mpr hc))
    · exact congrArg Device.unspecified (if_neg fun hc => hno ⟨hr, (Fsm.samples_iff _).mp hc⟩)

/-- Settles O2: the eight words with V = 1, and those with V = 0. -/
theorem tableWordsDecodeToTheirRows : Obligations.TableWordsDecodeToTheirRows :=
  ⟨rfl, rfl, rfl, rfl, rfl, rfl, rfl, rfl, by decide⟩

/-- Settles O5: the arm of the decoded command, or the controller's tick, which does nothing in IDLE. -/
theorem stepRunsTheDecodedCommand : Obligations.StepRunsTheDecodedCommand := by
  refine fun s hr => ⟨rfl, fun i hd => step_of_decode hr hd, fun hf hv => ?_⟩
  rw [step_of_no_command hr (decode_of_not_cmdValid hv), State.controllerTick_idle (by simpa using hf)]

/-- Settles O6: every arm of a tick answers a next state. -/
theorem stepNeverStops : Obligations.StepNeverStops := step_next

/-- Settles O16: what the acceptance writes, and the row EN_LO of R89. -/
theorem runAcceptanceEntersEnable : Obligations.RunAcceptanceEntersEnable := fun _ => exec_run_idle

/-- Settles O36: the reset values, with any device and any host beside them. -/
theorem invariantHoldsAtReset : Obligations.InvariantHoldsAtReset :=
  ⟨StateInv.reset, fun q => StateInv.reset.environment (.reference q) [],
    fun s hs lines => hs.environment s.device (programItems lines)⟩

/-- Settles O39: by the values of reset and enable. -/
theorem deviceEdgeClearsShiftsOrHolds : Obligations.DeviceEdgeClearsShiftsOrHolds := by
  intro rst en si q
  cases rst with
  | true =>
    refine ⟨_, Device.edge_reset en si q, List.length_replicate, fun h => ?_, fun _ j hj => ?_, by simp, by simp⟩
    · rw [h, List.length_eq_zero_iff.mp h, List.replicate_zero]
    · rw [List.getElem?_replicate, if_pos hj]
  | false =>
    cases en with
    | true =>
      refine ⟨_, Device.edge_shift si q, by simp, fun h => ?_, by simp, fun _ _ => ⟨fun h => ?_, fun j h1 h => ?_⟩,
        by simp⟩
      · rw [h, List.length_eq_zero_iff.mp h, List.take_zero]
      · rw [List.getElem?_take_of_lt h, List.getElem?_cons_zero]
      · obtain ⟨j, rfl⟩ := Nat.exists_eq_add_of_le' h1
        rw [List.getElem?_take_of_lt h, List.getElem?_cons_succ, Nat.add_sub_cancel]
    | false => exact ⟨q, Device.edge_hold si q, rfl, fun _ => rfl, by simp, by simp, fun _ _ => rfl⟩

/-- Settles O57: the wiring of R13 and R33, output by output. -/
theorem outputsDependOnRegistersOnly : Obligations.OutputsDependOnRegistersOnly := by
  intro s
  have hcode {x : Fsm} (hf : s.fsm = x) : s.outputs.dbgState = x.code := congrArg Fsm.code hf
  have hready : s.outputs.status.getLsbD 0 = !s.outputs.cmdReady := s.status_bit_zero.trans (Bool.not_not _).symm
  obtain ⟨hle, hzero⟩ := s.fsm.code_bounds
  exact ⟨fun _ _ => rfl, s.cmdReady_eq_true, rfl, hready, hcode, hcode, hcode, hcode, hcode, hcode, hcode, hcode, hcode,
    hle, hzero, rfl, rfl⟩

end
